-- ==== Sys2Proof/Word.lean ====
section
/-! DEFINITION. The word types of the HL-4120: bytes of the line and of the host port, tags and message sequences. -/

namespace Sys2Proof

/-- A byte of a frame or of a host transaction. -/
abbrev Byte := BitVec 8

/-- The 16-bit number the host gives a message (00 "Terms"). -/
abbrev Tag := BitVec 16

/-- The 4-bit message sequence (R93 to R95); adding 1 wraps modulo 16, as R94 asks. -/
abbrev Seq := BitVec 4

end Sys2Proof
end

