-- ==== Sys2Proof/Syntax.lean ====
section
/-! DEFINITION. The commands the block takes: one constructor for each row of the table of operations and events. -/

namespace Sys2Proof

/-- A reading that the LI passes to the deframer (R2, R6): 1, 0 or bad. -/
inductive Reading where
  | one
  | zero
  | bad
  deriving DecidableEq, Repr

/-- The commands. A host command's operand is the byte that reaches its decision point (R156); the parameter bytes
before it stand in State. `after` is the number of bit times that pass on the line, as it stands, before the event
(log 6). -/
inductive Instr where
  /-- HARD_RESET (R87): power-up, or RST going low. -/
  | hardReset
  /-- SEL_LOW (R155). -/
  | selLow
  /-- UNKNOWN_COMMAND (R156): a command byte that holds no known code. -/
  | unknownCommand (code : Byte)
  /-- STATUS (R160): its command byte. -/
  | status
  /-- SETUP (R78): its sixth parameter byte, the hold-off units H. -/
  | setup (holdOffUnits : Byte)
  /-- JOIN (R79): its command byte. -/
  | join
  /-- LEAVE (R81): its command byte. -/
  | leave
  /-- RESTART (R88): its command byte. -/
  | restart
  /-- SUBMIT (R105): its length byte. -/
  | submit (length : Byte)
  /-- SUBMIT_PAYLOAD_BYTE (R164). -/
  | submitPayloadByte (value : Byte)
  /-- CANCEL (R120): the tag's low byte. -/
  | cancel (tagLow : Byte)
  /-- TAKE_COMPLETION (R119): its command byte. -/
  | takeCompletion
  /-- FETCH (R139): its command byte. -/
  | fetch
  /-- RELEASE (R140): its command byte. -/
  | release
  /-- TAKE_NOTICE (R178): its command byte. -/
  | takeNotice
  /-- GATE (R97): its setting byte. -/
  | gate (setting : Byte)
  /-- READ_PEER (R102): its address byte. -/
  | readPeer (address : Byte)
  /-- READ_ORDER (R161): its command byte. -/
  | readOrder
  /-- MASK (R170): its third byte, the flag for notices. -/
  | mask (notices : Byte)
  /-- SEL_HIGH (R158). -/
  | selHigh
  /-- ACTIVE_EVENT (R5), `after` bit times of quiet later. -/
  | activeEvent (after : Nat)
  /-- FRAME_CANDIDATE (R6). -/
  | frameCandidate
  /-- SYNC_FOUND (R24): the reading that completes the sync pattern, a 0. -/
  | syncFound
  /-- NO_SYNC (R24): reading 32. -/
  | noSync (r : Reading)
  /-- HEADER_JUDGED (R25): the last header reading, or a bad one. -/
  | headerJudged (r : Reading)
  /-- BODY_CHECK_TAKEN (R26): the last reading of the body. -/
  | bodyCheckTaken (r : Reading)
  /-- OVERRUN (R27): a reading after the second end symbol. -/
  | overrun (r : Reading)
  /-- QUIET_EVENT (R7), `after` further bit times of the burst later. -/
  | quietEvent (after : Nat)
  /-- ANSWER_GAP_EXPIRY (R30). -/
  | answerGapExpiry
  /-- ECHO_PASS (R12). -/
  | echoPass
  /-- ECHO_MISMATCH (R11), `after` further bit times of the burst later. -/
  | echoMismatch (after : Nat)
  /-- SLOT_START (R39). -/
  | slotStart
  /-- FRAME_START (R42). -/
  | frameStart
  /-- ROUND_END (R46). -/
  | roundEnd
  /-- REST_DETECT_EXPIRY (R51). -/
  | restDetectExpiry
  /-- HOLD_OFF_EXPIRY (R99) of one peer. -/
  | holdOffExpiry (peer : Nat)
  /-- GUARD_COMPLETE (R36). -/
  | guardComplete
  /-- STUCK (R14). -/
  | stuck
  /-- FREE (R15), `after` further driven bit times later. -/
  | free (after : Nat)
  /-- READING (R26): what the LI reads in the next bit time of the burst, none where it is undriven (R2, R6). -/
  | reading (r : Option Reading)
  /-- HARD_RESET_END (R87). -/
  | hardResetEnd
  /-- BYTE_RECEIVED (R154). -/
  | byteReceived (value : Byte)
  deriving DecidableEq, Repr

end Sys2Proof
end

