-- ==== Sys2Proof/Config.lean ====
section
/-! DEFINITION. The values the spec leaves open, as constants without a body: nothing can be proved of them but what
holds for every value. Each is applied to the counter `choice` of State, so that every use is a fresh value. -/

namespace Sys2Proof

/-- The bit that a bad reading stands for in a payload or check byte. R26 and R127 let the byte be assembled and passed
on, and give the bit no value. Log 7. -/
opaque Config.badReadingBit : Nat → Bool

/-- Whether LINE-STUCK reaches the notice queue before the PEER-SILENT that the same stuck event raises. R176 leaves the
order of notices of different blocks open. Log 8. -/
opaque Config.lineNoticeFirst : Nat → Bool

end Sys2Proof
end

