-- ==== Sys2Proof/Machine/State.lean ====
section
/-! DEFINITION. The state of the station, block by block as 00 lists the blocks, and the state after reset. -/

namespace Sys2Proof.Machine

/-! ### Line Interface (chapter 01) -/

/-- The sensing state (R3). -/
inductive Sensing where
  | off
  | quiet
  | active
  | stuck
  deriving DecidableEq, Repr

/-- The burst record (R5): the bit time of its first driven bit, its length so far, the own and partial markings, and
whether it has become a frame candidate, how many of its readings have been handed to the FU, and whether an undriven bit
time has been read and is held until the next one has been (R6). -/
structure Burst where
  start : Nat
  length : Nat
  isOwn : Bool
  isPartial : Bool
  candidate : Bool
  handed : Nat
  held : Bool
  deriving DecidableEq, Repr

/-- Who owns a transmission, by its kind: the AC owns marks and frames, the FU answers (1.6). -/
inductive Owner where
  | mark
  | frame
  | answer
  deriving DecidableEq, Repr

/-- A transmission under way: the driver is DRIVING exactly while there is one (R10). -/
structure Transmission where
  owner : Owner
  symbols : List Bool
  start : Nat
  deriving DecidableEq, Repr

/-- The Line Interface. `lineDriven` is the level of the pair as last told (R4 looks at it when sensing begins). -/
structure LineInterface where
  sensing : Sensing
  tx : Option Transmission
  burst : Option Burst
  stuckTimer : Nat
  time : Nat
  lineDriven : Bool
  deriving DecidableEq, Repr

/-! ### Frame Unit (chapter 02) -/

/-- The kinds of frame that follow a mark (R16). -/
inductive FrameKind where
  | dataDirect
  | dataAll
  | probe
  | orderReset
  deriving DecidableEq, Repr

/-- The answer codes (R19). -/
inductive AnswerCode where
  | accepted
  | duplicate
  | full
  | closed
  | checkFail
  | present
  deriving DecidableEq, Repr

/-- The fields of a frame header (R17), without its check. -/
structure FrameHeader where
  kind : FrameKind
  source : Nat
  destination : Nat
  claimSlot : Nat
  sequence : Seq
  length : Nat
  deriving DecidableEq, Repr

/-- The fields of an ANSWER header (R19), without its check. -/
structure AnswerHeader where
  source : Nat
  destination : Nat
  code : AnswerCode
  echo : Seq
  deriving DecidableEq, Repr

/-- A header of either form. -/
inductive Header where
  | frame (h : FrameHeader)
  | answer (h : AnswerHeader)
  deriving DecidableEq, Repr

/-- The source of a header of either form. -/
def Header.source : Header → Nat
  | .frame h => h.source
  | .answer h => h.source

/-- The deframer states (R23 to R28). -/
inductive DeframerPhase where
  | quiet
  | hunt
  | header
  | body
  | tail
  | discard
  deriving DecidableEq, Repr

/-- The receive deframer: the number of the reading, the last 16 readings (newest first), the header buffer, the bits of
the byte being assembled, the two check accumulators, the header judged valid, the symbols still expected, the body bytes
assembled, the body-failed flag, and the end symbols taken. -/
structure Deframer where
  phase : DeframerPhase
  count : Nat
  recent : List Reading
  headerBytes : List Byte
  bits : List Bool
  headerCheck : BitVec 8
  bodyCheck : BitVec 16
  header : Option Header
  expected : Nat
  bodyBytes : List Byte
  bodyFailed : Bool
  tail : Nat
  deriving DecidableEq, Repr

/-- A frame request of the AC (R22, R42). -/
structure FrameRequest where
  kind : FrameKind
  destination : Nat
  claimSlot : Nat
  sequence : Seq
  length : Nat
  payload : List Byte
  deriving DecidableEq, Repr

/-- An answer decided and waiting to go (R30). -/
structure Answer where
  destination : Nat
  code : AnswerCode
  echo : Seq
  deriving DecidableEq, Repr

/-- The transmit framer (R22): in FRAME the request it sends, in ANSWER-DUE the answer and the bit time at which the
answer gap has run. -/
inductive Framer where
  | idle
  | frame (request : FrameRequest)
  | answerDue (answer : Answer) (due : Nat)
  | answer
  deriving DecidableEq, Repr

/-- The answer window (R32). `armed` says that the own frame's burst has ended; a judged window holds the code of the
valid answer, or none for unanswered. -/
inductive Window where
  | closed
  | opened (kind : FrameKind) (destination : Nat) (sequence : Seq) (armed : Bool)
  | judged (kind : FrameKind) (destination : Nat) (sequence : Seq) (answer : Option AnswerCode)
  deriving DecidableEq, Repr

/-- The Frame Unit. -/
structure FrameUnit where
  deframer : Deframer
  framer : Framer
  window : Window
  deriving DecidableEq, Repr

/-! ### Access Controller (chapters 03, 04, 05) -/

/-- The six station states (R75). -/
inductive StationState where
  | offline
  | listening
  | resync
  | online
  | leaving
  | halted
  deriving DecidableEq, Repr

/-- The setup record and its validity mark (R77). -/
structure SetupRecord where
  address : Nat
  roster : Nat
  rate : Nat
  slot : Nat
  retry : Nat
  holdOff : Nat
  valid : Bool
  deriving DecidableEq, Repr

/-- The round phases (R34). The k of ROUND(k) is computed from the time base (log 24). -/
inductive Phase where
  | unaligned
  | round
  | access
  | rest
  deriving DecidableEq, Repr

/-- What an own claim is to send (R35). -/
inductive ClaimContent where
  | orderReset
  | entry (tag : Tag)
  | wake
  deriving DecidableEq, Repr

/-- The progress of an own claim (R35). -/
inductive Progress where
  | marked
  | held
  | sent
  | passed
  | mismatched
  | withdrawn
  | wake
  deriving DecidableEq, Repr

/-- An own claim (R35): its slot (none for a wake mark), its content, its progress, and the bit time of its mark. -/
structure OwnClaim where
  slot : Option Nat
  content : ClaimContent
  progress : Progress
  markedAt : Nat
  deriving DecidableEq, Repr

/-- How a frame with a valid header ended (R35). -/
inductive FrameEnd where
  | awaited
  | good
  | body
  | truncated
  deriving DecidableEq, Repr

/-- The body of an ORDER-RESET (R18): the sender's roster size and its restart indicator. -/
structure OrderResetBody where
  roster : Nat
  restart : Bool
  deriving DecidableEq, Repr

/-- The frame report of the access record (R35). -/
inductive FrameReport where
  | absent
  | headerInvalid
  | truncated
  | header (h : Header) (e : FrameEnd) (order : Option OrderResetBody)
  deriving DecidableEq, Repr

/-- The access record (R35), with what it implies: the slot in which the access's first burst began, until that burst is
classed (R38), whether the first foreign candidate has been met, and whether it is the one under way (R43). -/
structure AccessRecord where
  burstSlot : Option Nat
  observed : Option Nat
  claim : Option OwnClaim
  report : FrameReport
  candidateSeen : Bool
  following : Bool
  deriving DecidableEq, Repr

/-- The round tracker (R34), with the guard count of R36 and whether the own slot of the round has been decided (R39). -/
structure RoundTracker where
  phase : Phase
  roundStart : Option Nat
  unclaimed : Nat
  activitySeen : Bool
  restDetect : Nat
  guard : Option Nat
  slotTaken : Bool
  access : AccessRecord
  deriving DecidableEq, Repr

/-- The Access Controller, with the setup record. -/
structure AccessController where
  station : StationState
  setup : SetupRecord
  tracker : RoundTracker
  order : List Nat
  restartPending : Bool
  collisions : Nat
  deriving DecidableEq, Repr

/-! ### Peer Table (chapter 06) -/

/-- Presence (R89). -/
inductive Presence where
  | unknown
  | present
  | silent
  deriving DecidableEq, Repr

/-- The gate (R96). -/
inductive Gate where
  | opened
  | closed
  deriving DecidableEq, Repr

/-- A hold-off that is present: its expiry time while the time base runs, its remaining time while it is stopped
(R98, R100). -/
inductive HoldOff where
  | running (expiry : Nat)
  | frozen (remaining : Nat)
  deriving DecidableEq, Repr

/-- A Peer Table entry (R89). -/
structure PeerEntry where
  presence : Presence
  unanswered : Nat
  nextSend : Seq
  lastAccepted : Option Seq
  gate : Gate
  holdOff : Option HoldOff
  deriving DecidableEq, Repr

/-! ### Transmit Engine (chapter 07) -/

/-- The kind of a message (R103). -/
inductive MessageKind where
  | data
  | probe
  deriving DecidableEq, Repr

/-- The destination of a message: one peer, or ALL (R103). -/
inductive Destination where
  | peer (address : Nat)
  | all
  deriving DecidableEq, Repr

/-- The state of a transmit entry (R103). -/
inductive EntryState where
  | waiting
  | inFlight
  deriving DecidableEq, Repr

/-- A transmit entry (R103). The payload stands for the contents of its blocks (log 11). -/
structure TxEntry where
  tag : Tag
  kind : MessageKind
  destination : Destination
  length : Nat
  payload : List Byte
  sequence : Option Seq
  attempts : Nat
  state : EntryState
  cancelPending : Bool
  lastAnswer : Option AnswerCode
  deriving DecidableEq, Repr

/-- The outcomes of a message (R118). -/
inductive MessageOutcome where
  | delivered
  | present
  | sent
  | refused
  | full
  | unanswered
  | cancelled
  | withdrawn
  deriving DecidableEq, Repr

/-- A completion record (R118). -/
structure Completion where
  tag : Tag
  destination : Destination
  outcome : MessageOutcome
  attempts : Nat
  sequence : Option Seq
  duplicateNote : Bool
  lastAnswer : Option AnswerCode
  deriving DecidableEq, Repr

/-- The Transmit Engine: both collections oldest first. -/
structure TransmitEngine where
  queue : List TxEntry
  completions : List Completion
  deriving DecidableEq, Repr

/-! ### Receive Engine (chapter 08) -/

/-- The kind of a receive record (R137). -/
inductive RecordKind where
  | direct
  | all
  deriving DecidableEq, Repr

/-- A receive record (R137). -/
structure RxRecord where
  source : Nat
  kind : RecordKind
  sequence : Option Seq
  length : Nat
  missed : Nat
  payload : List Byte
  deriving DecidableEq, Repr

/-- The staging buffer while it is open (R127). -/
structure Staging where
  source : Nat
  kind : RecordKind
  sequence : Seq
  length : Nat
  bytes : List Byte
  deriving DecidableEq, Repr

/-- The Receive Engine: the ring oldest first. -/
structure ReceiveEngine where
  ring : List RxRecord
  missed : Nat
  staging : Option Staging
  deriving DecidableEq, Repr

/-! ### Host Port (chapter 10) -/

/-- The transaction states (R153). -/
inductive Transaction where
  | idle
  | command
  | parameters
  | decided
  | dropped
  deriving DecidableEq, Repr

/-- The fifteen commands (R153). -/
inductive Command where
  | status
  | setup
  | join
  | leave
  | restart
  | submit
  | cancel
  | takeCompletion
  | fetch
  | release
  | takeNotice
  | gate
  | readPeer
  | readOrder
  | mask
  deriving DecidableEq, Repr

/-- The reply codes (R158 table, R183). -/
inductive Reply where
  | ok
  | pending
  | empty
  | notFound
  | wrongState
  | noSetup
  | badSetup
  | badLength
  | badDest
  | duplicateTag
  | queueFull
  | noSpace
  | badAddress
  | unknownCommand
  deriving DecidableEq, Repr

/-- The outgoing stream and the count of its bytes already clocked out (R153). -/
structure OutStream where
  reply : Reply
  data : List Byte
  clocked : Nat
  deriving DecidableEq, Repr

/-- The open SUBMIT (R105, R165) with the payload bytes received so far. -/
structure OpenSubmit where
  kind : MessageKind
  destination : Destination
  tag : Tag
  length : Nat
  received : List Byte
  deriving DecidableEq, Repr

/-- The attention mask (R153): a flag is set while its class is enabled. -/
structure AttentionMask where
  completions : Bool
  receptions : Bool
  notices : Bool
  deriving DecidableEq, Repr

/-- The Host Port. SEL is low exactly while the transaction state is not IDLE (R153). -/
structure HostPort where
  transaction : Transaction
  command : Option Command
  parameters : List Byte
  stream : Option OutStream
  summary : Option Byte
  sdo : Option Byte
  submit : Option OpenSubmit
  mask : AttentionMask
  deriving DecidableEq, Repr

/-! ### Notice Queue (chapter 11) -/

/-- The eleven notice kinds (R174). -/
inductive NoticeKind where
  | orderDiverged
  | orderResetSeen
  | collision
  | addressConflict
  | lineStuck
  | lineFree
  | rosterMismatch
  | peerSilent
  | peerBack
  | refusedFull
  | frameError
  deriving DecidableEq, Repr

/-- The receive error kinds (R29), the detail of FRAME-ERROR. -/
inductive ErrorKind where
  | noSync
  | header
  | body
  | truncated
  deriving DecidableEq, Repr

/-- A notice as its producer hands it over (R174). -/
structure Notice where
  kind : NoticeKind
  subject : Option Nat
  detail : Option ErrorKind
  deriving DecidableEq, Repr

/-- A notice record (R173). -/
structure NoticeRecord where
  notice : Notice
  repeats : Nat
  lostAfter : Nat
  deriving DecidableEq, Repr

/-! ### The whole station -/

/-- The state of the station and of the queue of commands that wait. -/
structure State where
  li : LineInterface
  fu : FrameUnit
  ac : AccessController
  peers : Vector PeerEntry 32
  te : TransmitEngine
  re : ReceiveEngine
  freeBlocks : Nat
  hp : HostPort
  notices : List NoticeRecord
  resetHeld : Bool
  choice : Nat
  pending : List Instr
  deriving DecidableEq, Repr

/-- Faults: the spec describes no condition that stops the station, so there is none. -/
inductive Fault : Type where
  deriving DecidableEq, Repr

/-- Refusals. -/
inductive Refusal : Type where
  /-- A command that the dispatch has no meaning for yet; raised there only; safe. -/
  | notModelled (mnemonic : String)
  deriving DecidableEq, Repr

/-! ### Reset values -/

/-- The deframer's first values (chapter 02, opening; R23; R182). -/
def Deframer.initial : Deframer :=
  { phase := .quiet, count := 0, recent := [], headerBytes := [], bits := [], headerCheck := 0xFF, bodyCheck := 0xFFFF,
    header := none, expected := 0, bodyBytes := [], bodyFailed := false, tail := 0 }

/-- The first values of the Frame Unit (chapter 02, opening). -/
def FrameUnit.initial : FrameUnit :=
  { deframer := Deframer.initial, framer := .idle, window := .closed }

/-- The empty access record (R35). -/
def AccessRecord.empty : AccessRecord :=
  { burstSlot := none, observed := none, claim := none, report := .absent, candidateSeen := false, following := false }

/-- The round tracker's initial values (R34). -/
def RoundTracker.initial : RoundTracker :=
  { phase := .unaligned, roundStart := none, unclaimed := 0, activitySeen := false, restDetect := 0, guard := none,
    slotTaken := false, access := AccessRecord.empty }

/-- The setup record after a hard reset: invalid, every field 0 (R77). -/
def SetupRecord.initial : SetupRecord :=
  { address := 0, roster := 0, rate := 0, slot := 0, retry := 0, holdOff := 0, valid := false }

/-- A Peer Table entry at JOIN and after either reset (R89). -/
def PeerEntry.initial : PeerEntry :=
  { presence := .unknown, unanswered := 0, nextSend := 0, lastAccepted := none, gate := .opened, holdOff := none }

/-- Every class enabled (R153). -/
def AttentionMask.all : AttentionMask := { completions := true, receptions := true, notices := true }

/-- The Host Port between transactions, with its mask (R153, R158). -/
def HostPort.between (mask : AttentionMask) : HostPort :=
  { transaction := .idle, command := none, parameters := [], stream := none, summary := none, sdo := none,
    submit := none, mask := mask }

/-- The LI after either reset (R3). -/
def LineInterface.initial : LineInterface :=
  { sensing := .off, tx := none, burst := none, stuckTimer := 0, time := 0, lineDriven := false }

/-- The Access Controller after a hard reset (R54, R72, R73, R75, R77). -/
def AccessController.initial : AccessController :=
  { station := .offline, setup := SetupRecord.initial, tracker := RoundTracker.initial, order := [],
    restartPending := false, collisions := 0 }

/-- The station right after a hard reset has ended (R87; log 19), with nothing waiting. -/
def State.reset : State :=
  { li := LineInterface.initial
    fu := FrameUnit.initial
    ac := AccessController.initial
    peers := Vector.replicate 32 PeerEntry.initial
    te := { queue := [], completions := [] }
    re := { ring := [], missed := 0, staging := none }
    freeBlocks := 192
    hp := HostPort.between AttentionMask.all
    notices := []
    resetHeld := false
    choice := 0
    pending := [] }

end Sys2Proof.Machine
end

