-- ==== Sys2Proof/WellFormed.lean ====
section
/-! DEFINITION. Which commands are well formed: the operand ranges that the rules give. A command that is not well formed
names no event of the part, and the machine leaves the station unchanged at it. -/

namespace Sys2Proof

/-- The fifteen command codes of the Host Port chapter (R160 to R170, R178). -/
def commandCodes : List Byte :=
  [0x01, 0x02, 0x03, 0x04, 0x05, 0x10, 0x11, 0x12, 0x20, 0x21, 0x30, 0x40, 0x41, 0x42, 0x50]

/-- Operand ranges: an unknown command byte holds none of the codes (R156); a hold-off belongs to one of the 32 addresses
(R89). -/
def Instr.wellFormed : Instr → Bool
  | .unknownCommand code => !commandCodes.contains code
  | .holdOffExpiry peer => decide (peer < 32)
  | _ => true

end Sys2Proof
end

