-- ==== Sys2Proof/Machine/Operands.lean ====
section
/-! DEFINITION. The forms in which the commands' operands and the station's data stand: symbols and readings (chapter 01),
the byte layouts of frames and of host records, the two checks and the code values (chapter 13), the parameter bytes of
the host commands (chapter 10), and the block need of a payload (R145). -/

namespace Sys2Proof.Machine

/-! ### Bits and bytes -/

/-- The bits of a word, least significant first: the order on the line (R9). -/
def bitsLowFirst {n : Nat} (w : BitVec n) : List Bool := (List.range n).map w.getLsbD

/-- The bits of a word, most significant first: the order in which a check takes them (R182). -/
def bitsHighFirst {n : Nat} (w : BitVec n) : List Bool := (bitsLowFirst w).reverse

/-- The byte whose bits, least significant first, are given. -/
def byteOfBits : List Bool → Byte
  | [] => 0
  | b :: bs => (byteOfBits bs <<< 1) ||| (if b then 1 else 0)

/-- A number as the byte that carries it. -/
def toByte (n : Nat) : Byte := BitVec.ofNat 8 n

/-- A flag as a byte: 0 when clear, 1 when set (R183). -/
def flagByte (b : Bool) : Byte := if b then 1 else 0

/-- An address, sequence or position that may be absent: 0xFF when it is (R183). -/
def optionalByte : Option Nat → Byte
  | none => 0xFF
  | some n => toByte n

/-! ### Half-symbols (R2) -/

/-- What the pair shows in one half of a bit time. -/
inductive Half where
  | positive
  | negative
  | undriven
  deriving DecidableEq, Repr

/-- The two halves of a driven symbol (R2). -/
def symbolHalves : Bool → Half × Half
  | true => (.positive, .negative)
  | false => (.negative, .positive)

/-- What the pair shows when two stations drive it: equal halves stand, opposite halves cancel (1.2). -/
def mergeHalf : Half → Half → Half
  | .undriven, b => b
  | a, .undriven => a
  | .positive, .positive => .positive
  | .negative, .negative => .negative
  | .positive, .negative => .undriven
  | .negative, .positive => .undriven

/-- How the LI classes a bit time (R2): none for undriven. -/
def classify : Half × Half → Option Reading
  | (.positive, .negative) => some .one
  | (.negative, .positive) => some .zero
  | (.undriven, .undriven) => none
  | _ => some .bad

/-- The divider of the 16 MHz reference for a rate code (R1). -/
def bitTimeDivider (rate : Nat) : Nat := 128 / 2 ^ rate

/-- The reading of a driven symbol. -/
def Reading.ofBit : Bool → Reading
  | true => .one
  | false => .zero

/-! ### Block need (R145) -/

/-- The blocks that a payload of `length` bytes needs. -/
def blocksFor (length : Nat) : Nat := (length + 31) / 32

/-! ### The two checks (R182) -/

/-- One bit of a division: shift, compare the bit that leaves with the message bit, add the polynomial when they differ. -/
def crcBit {n : Nat} (poly : BitVec n) (reg : BitVec n) (bit : Bool) : BitVec n :=
  if reg.msb == bit then reg <<< 1 else (reg <<< 1) ^^^ poly

/-- One byte of a division, most significant bit first. -/
def crcByte {n : Nat} (poly : BitVec n) (reg : BitVec n) (b : Byte) : BitVec n :=
  (bitsHighFirst b).foldl (crcBit poly) reg

/-- A byte into the header check accumulator: polynomial 0x07. -/
def headerCheckByte (reg : BitVec 8) (b : Byte) : BitVec 8 := crcByte 0x07 reg b

/-- A byte into the body check accumulator: polynomial 0x8BB7. -/
def bodyCheckByte (reg : BitVec 16) (b : Byte) : BitVec 16 := crcByte 0x8BB7 reg b

/-- The header check of a list of bytes; the register starts at 0xFF. -/
def headerCheckOf (bytes : List Byte) : BitVec 8 := bytes.foldl headerCheckByte 0xFF

/-- The body check of a list of bytes; the register starts at 0xFFFF. -/
def bodyCheckOf (bytes : List Byte) : BitVec 16 := bytes.foldl bodyCheckByte 0xFFFF

/-- The low byte of a 16-bit value. -/
def lowByte (w : BitVec 16) : Byte := w.extractLsb' 0 8

/-- The high byte of a 16-bit value. -/
def highByte (w : BitVec 16) : Byte := w.extractLsb' 8 8

/-- A 16-bit value from its high and its low byte. -/
def wordOfBytes (high low : Byte) : BitVec 16 := high ++ low

/-! ### Frames on the line (R8, R9, R181) -/

/-- The mark (R8). -/
def markSymbols : List Bool := [true, false, true, false]

/-- The preamble (R9). -/
def preambleSymbols : List Bool := [true, false, true, false, true, false, true, false]

/-- The sync pattern 0x3A6C, low byte first, each byte least significant bit first (R9). -/
def syncSymbols : List Bool :=
  [false, false, true, true, false, true, true, false, false, true, false, true, true, true, false, false]

/-- The end symbols (R9). -/
def endSymbols : List Bool := [true, true]

/-- The address that names ALL (R17). -/
def allAddress : Nat := 63

/-- The frame kind codes (R181). -/
def FrameKind.code : FrameKind → Byte
  | .dataDirect => 0x01
  | .dataAll => 0x02
  | .probe => 0x03
  | .orderReset => 0x04

/-- The ANSWER kind byte (R181). -/
def answerKindByte : Byte := 0x05

/-- The answer code values (R181). -/
def AnswerCode.code : AnswerCode → Byte
  | .accepted => 1
  | .duplicate => 2
  | .full => 3
  | .closed => 4
  | .checkFail => 5
  | .present => 6

/-- The frame kind of a kind byte; a byte whose upper half is not 0 names none (R20). -/
def frameKindOf (b : Byte) : Option FrameKind :=
  if b = 0x01 then some .dataDirect
  else if b = 0x02 then some .dataAll
  else if b = 0x03 then some .probe
  else if b = 0x04 then some .orderReset
  else none

/-- The answer code of a code byte (R21). -/
def answerCodeOf (b : Byte) : Option AnswerCode :=
  if b = 1 then some .accepted
  else if b = 2 then some .duplicate
  else if b = 3 then some .full
  else if b = 4 then some .closed
  else if b = 5 then some .checkFail
  else if b = 6 then some .present
  else none

/-- The bytes followed by their header check. -/
def withHeaderCheck (bytes : List Byte) : List Byte := bytes ++ [headerCheckOf bytes]

/-- The seven header bytes of a frame (R17, R181). -/
def frameHeaderBytes (source : Nat) (r : FrameRequest) : List Byte :=
  withHeaderCheck [r.kind.code, toByte source, toByte r.destination, toByte r.claimSlot, r.sequence.setWidth 8,
    toByte r.length]

/-- The body of a frame: the payload and its check, low byte first; none for a length of 0 (R18, R181). -/
def frameBodyBytes (r : FrameRequest) : List Byte :=
  if r.length = 0 then [] else r.payload ++ [lowByte (bodyCheckOf r.payload), highByte (bodyCheckOf r.payload)]

/-- The six header bytes of an ANSWER (R19, R181). -/
def answerHeaderBytes (source : Nat) (a : Answer) : List Byte :=
  withHeaderCheck [answerKindByte, toByte source, toByte a.destination, a.code.code, a.echo.setWidth 8]

/-- The symbols of a frame or answer whose header and body bytes are given (R9). -/
def envelope (bytes : List Byte) : List Bool :=
  preambleSymbols ++ syncSymbols ++ bytes.flatMap bitsLowFirst ++ endSymbols

/-- The symbols of a frame (R9). -/
def frameSymbols (source : Nat) (r : FrameRequest) : List Bool :=
  envelope (frameHeaderBytes source r ++ frameBodyBytes r)

/-- The symbols of an answer (R9). -/
def answerSymbols (source : Nat) (a : Answer) : List Bool := envelope (answerHeaderBytes source a)

/-- Whether a destination byte fits its kind (R20): ALL for a broadcast, a peer of the source for a unicast frame. -/
def destinationFits (roster : Nat) (kind : FrameKind) (source destination : Nat) : Bool :=
  match kind with
  | .dataDirect | .probe => decide (destination < roster) && destination != source
  | .dataAll | .orderReset => destination == allAddress

/-- Whether a claim slot fits its kind (R20): an order slot, or for an ORDER-RESET also the source's address slot. -/
def claimSlotFits (roster : Nat) (kind : FrameKind) (source slot : Nat) : Bool :=
  (decide (roster ≤ slot) && decide (slot < 2 * roster)) || (kind == .orderReset && slot == source)

/-- Whether a length fits its kind (R20). -/
def lengthFits (kind : FrameKind) (length : Nat) : Bool :=
  match kind with
  | .dataDirect | .dataAll => decide (length ≤ 240)
  | .probe => length == 0
  | .orderReset => length == 2

/-- Judge a 7-byte header under R20; `check` is the accumulator over the six bytes before the check byte. -/
def judgeFrameHeader (roster : Nat) (bytes : List Byte) (check : Byte) : Option Header :=
  match bytes with
  | [kindByte, source, destination, slot, sequence, length, received] =>
    match frameKindOf kindByte with
    | none => none
    | some kind =>
      if received = check ∧ sequence.toNat < 16 ∧ source.toNat < roster
          ∧ destinationFits roster kind source.toNat destination.toNat
          ∧ claimSlotFits roster kind source.toNat slot.toNat ∧ lengthFits kind length.toNat then
        some (.frame { kind := kind, source := source.toNat, destination := destination.toNat, claimSlot := slot.toNat,
                       sequence := sequence.setWidth 4, length := length.toNat })
      else none
  | _ => none

/-- Judge a 6-byte ANSWER header under R21; `check` is the accumulator over the five bytes before the check byte. -/
def judgeAnswerHeader (roster : Nat) (bytes : List Byte) (check : Byte) : Option Header :=
  match bytes with
  | [kindByte, source, destination, code, echo, received] =>
    match answerCodeOf code with
    | none => none
    | some c =>
      if kindByte = answerKindByte ∧ received = check ∧ echo.toNat < 16 ∧ source.toNat < roster
          ∧ destination.toNat < roster ∧ destination ≠ source then
        some (.answer { source := source.toNat, destination := destination.toNat, code := c,
                        echo := echo.setWidth 4 })
      else none
  | _ => none

/-- How many header bytes a candidate has, known once its kind byte is: 6 for the kind byte 0x05, 7 for any other (R23). -/
def headerLength (bytes : List Byte) : Nat := if bytes.head? = some answerKindByte then 6 else 7

/-- Judge a complete header, of either form (R25). -/
def judgeHeader (roster : Nat) (bytes : List Byte) (check : Byte) : Option Header :=
  if headerLength bytes = 6 then judgeAnswerHeader roster bytes check else judgeFrameHeader roster bytes check

/-- The payload length that a valid header announces: 0 for an ANSWER (R19). -/
def Header.payloadLength : Header → Nat
  | .frame h => h.length
  | .answer _ => 0

/-- The symbols still expected after a valid header (R25). -/
def Header.bodySymbols (h : Header) : Nat :=
  if h.payloadLength = 0 then 0 else 8 * h.payloadLength + 16

/-! ### Host commands (R156, R160 to R170) -/

/-- The command of a command byte. -/
def commandOf (b : Byte) : Option Command :=
  if b = 0x01 then some .status
  else if b = 0x02 then some .setup
  else if b = 0x03 then some .join
  else if b = 0x04 then some .leave
  else if b = 0x05 then some .restart
  else if b = 0x10 then some .submit
  else if b = 0x11 then some .cancel
  else if b = 0x12 then some .takeCompletion
  else if b = 0x20 then some .fetch
  else if b = 0x21 then some .release
  else if b = 0x30 then some .takeNotice
  else if b = 0x40 then some .gate
  else if b = 0x41 then some .readPeer
  else if b = 0x42 then some .readOrder
  else if b = 0x50 then some .mask
  else none

/-- How many parameter bytes a command has (chapter 10, "Commands at a glance"). -/
def Command.parameterCount : Command → Nat
  | .setup => 6
  | .submit => 5
  | .mask => 3
  | .cancel => 2
  | .gate => 2
  | .readPeer => 1
  | .status | .join | .leave | .restart | .takeCompletion | .fetch | .release | .takeNotice | .readOrder => 0

/-- Parameter byte i of a transaction, counted from 0. -/
def parameter (bytes : List Byte) (i : Nat) : Byte := bytes.getD i 0

/-- The kind that a SUBMIT kind byte requests (R105). -/
def messageKindOf (b : Byte) : MessageKind := if b = 0 then .data else .probe

/-- The destination that a SUBMIT destination byte requests (R105). -/
def destinationOf (b : Byte) : Destination := if b.toNat = allAddress then .all else .peer b.toNat

/-- The setup record that six parameter bytes ask for (R183). -/
def setupOf (bytes : List Byte) : SetupRecord :=
  { address := (parameter bytes 0).toNat, roster := (parameter bytes 1).toNat, rate := (parameter bytes 2).toNat,
    slot := (parameter bytes 3).toNat, retry := (parameter bytes 4).toNat, holdOff := (parameter bytes 5).toNat,
    valid := true }

/-- Whether every field of a setup record is in its range (R77). -/
def SetupRecord.inRange (r : SetupRecord) : Bool :=
  decide (2 ≤ r.roster) && decide (r.roster ≤ 32) && decide (r.address < r.roster) && decide (r.rate ≤ 5)
    && decide (6 ≤ r.slot) && decide (r.slot ≤ 16) && decide (1 ≤ r.retry) && decide (r.retry ≤ 15)
    && decide (1 ≤ r.holdOff) && decide (r.holdOff ≤ 255)

/-! ### Code values of host records (R183) -/

/-- Reply codes. -/
def Reply.code : Reply → Byte
  | .ok => 0x01
  | .pending => 0x02
  | .empty => 0x03
  | .notFound => 0x04
  | .wrongState => 0x10
  | .noSetup => 0x11
  | .badSetup => 0x12
  | .badLength => 0x13
  | .badDest => 0x14
  | .duplicateTag => 0x15
  | .queueFull => 0x16
  | .noSpace => 0x17
  | .badAddress => 0x18
  | .unknownCommand => 0x1F

/-- Station state codes. -/
def StationState.code : StationState → Byte
  | .offline => 0
  | .listening => 1
  | .resync => 2
  | .online => 3
  | .leaving => 4
  | .halted => 5

/-- Outcome codes. -/
def MessageOutcome.code : MessageOutcome → Byte
  | .delivered => 1
  | .present => 2
  | .sent => 3
  | .refused => 4
  | .full => 5
  | .unanswered => 6
  | .cancelled => 7
  | .withdrawn => 8

/-- Notice kind codes. -/
def NoticeKind.code : NoticeKind → Byte
  | .orderDiverged => 1
  | .orderResetSeen => 2
  | .collision => 3
  | .addressConflict => 4
  | .lineStuck => 5
  | .lineFree => 6
  | .rosterMismatch => 7
  | .peerSilent => 8
  | .peerBack => 9
  | .refusedFull => 10
  | .frameError => 11

/-- Detail codes. -/
def ErrorKind.code : ErrorKind → Byte
  | .noSync => 1
  | .header => 2
  | .body => 3
  | .truncated => 4

/-- Presence codes. -/
def Presence.code : Presence → Byte
  | .unknown => 0
  | .present => 1
  | .silent => 2

/-- Gate codes. -/
def Gate.code : Gate → Byte
  | .opened => 0
  | .closed => 1

/-- Receive record kind codes. -/
def RecordKind.code : RecordKind → Byte
  | .direct => 0
  | .all => 1

/-- The destination byte of a completion record and of a frame: 63 for ALL. -/
def Destination.address : Destination → Nat
  | .peer a => a
  | .all => allAddress

/-! ### Host record layouts (R183) -/

/-- The eight bytes of a completion record. -/
def Completion.bytes (c : Completion) : List Byte :=
  [highByte c.tag, lowByte c.tag, toByte c.destination.address, c.outcome.code, toByte c.attempts,
    optionalByte (c.sequence.map BitVec.toNat), flagByte c.duplicateNote,
    (c.lastAnswer.map AnswerCode.code).getD 0]

/-- The five header bytes of a receive record, then its payload. -/
def RxRecord.bytes (r : RxRecord) : List Byte :=
  [toByte r.source, r.kind.code, optionalByte (r.sequence.map BitVec.toNat), toByte r.length, toByte r.missed]
    ++ r.payload

/-- The five bytes of a notice record. -/
def NoticeRecord.bytes (r : NoticeRecord) : List Byte :=
  [r.notice.kind.code, optionalByte r.notice.subject, (r.notice.detail.map ErrorKind.code).getD 0, toByte r.repeats,
    toByte r.lostAfter]

/-- The remaining time of a hold-off in units of 256 bit times, rounded up; 0 when none is present (R102). -/
def holdOffUnits (now : Nat) : Option HoldOff → Nat
  | none => 0
  | some (.running expiry) => (expiry - now + 255) / 256
  | some (.frozen remaining) => (remaining + 255) / 256

/-- The seven bytes of a peer entry. -/
def PeerEntry.bytes (now : Nat) (e : PeerEntry) : List Byte :=
  [e.presence.code, toByte e.unanswered, e.nextSend.setWidth 8, optionalByte (e.lastAccepted.map BitVec.toNat),
    e.gate.code, flagByte e.holdOff.isSome, toByte (holdOffUnits now e.holdOff)]

/-- The outgoing stream as bytes: the reply code, then the data (R156). -/
def OutStream.bytes (o : OutStream) : List Byte := o.reply.code :: o.data

/-- Every byte of the stream has been clocked out (R168). -/
def OutStream.complete (o : OutStream) : Bool := decide (o.bytes.length ≤ o.clocked)

/-! ### Sequences of the order list (R54, R55) -/

/-- The ascending addresses. -/
def ascending (roster : Nat) : List Nat := List.range roster

/-- Rotation of an address: it moves to the end; an address that is not in the list leaves it as it was (R55). -/
def rotate (a : Nat) (order : List Nat) : List Nat := if a ∈ order then order.erase a ++ [a] else order

end Sys2Proof.Machine
end

