-- ==== Sys2Proof/Machine/Flags.lean ====
section
/-! DEFINITION. What the station computes from its state without changing it: the driver state, the indications and the
attention line, the summary byte, slots and positions, holders' blocks, eligibility, and the need to send. -/

namespace Sys2Proof.Machine

/-! ### Line Interface -/

/-- The driver is DRIVING (R10). -/
def driving (s : State) : Bool := s.li.tx.isSome

/-- The symbol the driver puts on the line in the present bit time, none while it is RELEASED. -/
def drivenSymbol (s : State) : Option Bool := s.li.tx.bind fun t => t.symbols[s.li.time - t.start]?

/-- The line-stuck indication (R14, R15): 1 exactly in STUCK, since every way out of STUCK returns it to 0. -/
def lineStuck (s : State) : Bool := s.li.sensing == .stuck

/-- Reference clock periods in one bit time (R1). -/
def clocksPerBit (s : State) : Nat := bitTimeDivider s.ac.setup.rate

/-! ### Pending items and attention (R155, R171) -/

/-- Completion pending. -/
def completionPending (s : State) : Bool := !s.te.completions.isEmpty

/-- Receive pending (R142). -/
def receivePending (s : State) : Bool := !s.re.ring.isEmpty

/-- Notice pending (R179). -/
def noticePending (s : State) : Bool := !s.notices.isEmpty

/-- ATTN is asserted exactly while an enabled class is non-empty (R171). -/
def attention (s : State) : Bool :=
  (s.hp.mask.completions && completionPending s) || (s.hp.mask.receptions && receivePending s)
    || (s.hp.mask.notices && noticePending s)

/-- The summary byte (R155, R183). -/
def summaryByte (s : State) : Byte :=
  (s.ac.station.code <<< 5) ||| (flagByte (completionPending s) <<< 4) ||| (flagByte (receivePending s) <<< 3)
    ||| (flagByte (noticePending s) <<< 2) ||| (flagByte (lineStuck s) <<< 1) ||| flagByte (attention s)

/-! ### Rounds and slots -/

/-- The station's own address. -/
def ownAddress (s : State) : Nat := s.ac.setup.address

/-- The roster size N. -/
def roster (s : State) : Nat := s.ac.setup.roster

/-- The own position in the order list (R54). -/
def ownPosition (s : State) : Option Nat := s.ac.order.idxOf? (ownAddress s)

/-- The own slot (R37): the address slot in RESYNC, the order slot in ONLINE, none in any other state. -/
def ownSlot (s : State) : Option Nat :=
  match s.ac.station with
  | .resync => some (ownAddress s)
  | .online => (ownPosition s).map (roster s + ·)
  | .offline | .listening | .leaving | .halted => none

/-- The bit time at which slot k of the current round starts (R37). -/
def slotStartTime (s : State) (k : Nat) : Nat := s.ac.tracker.roundStart.getD 0 + k * s.ac.setup.slot

/-- The current slot k of ROUND(k) (R37), at most 2N−1. -/
def currentSlot (s : State) : Nat :=
  min (2 * roster s - 1) ((s.li.time - s.ac.tracker.roundStart.getD 0) / s.ac.setup.slot)

/-- The rest-detect interval (R51). -/
def restDetectInterval (s : State) : Nat := 8 * (2 * roster s) * s.ac.setup.slot + 16

/-! ### The access record -/

/-- An own access is in progress (R35, R81). -/
def ownAccess (s : State) : Bool := s.ac.tracker.access.claim.isSome

/-- The progress of the own claim, if there is one. -/
def claimProgress (s : State) : Option Progress := s.ac.tracker.access.claim.map (·.progress)

/-- The content of the own claim, if there is one. -/
def claimContent (s : State) : Option ClaimContent := s.ac.tracker.access.claim.map (·.content)

/-- The own claim has a mark or a frame still to pass or to fail (MARKED, HELD or SENT). -/
def claimUnsettled (s : State) : Bool :=
  claimProgress s == some .marked || claimProgress s == some .held || claimProgress s == some .sent

/-- The own claim holds the access: unsettled, or its frame has passed. -/
def claimOpen (s : State) : Bool := claimUnsettled s || claimProgress s == some .passed

/-- An answer is due or on the line (R81). -/
def answering (s : State) : Bool :=
  match s.fu.framer with
  | .answerDue _ _ => true
  | .answer => true
  | .idle | .frame _ => false

/-- The source of the valid header of the frame report, if it holds one. -/
def FrameReport.source : FrameReport → Option Nat
  | .header h _ _ => some h.source
  | .absent | .headerInvalid | .truncated => none

/-- The frame report names this station as the source of a valid header (R60). -/
def sourceIsOwn (s : State) : Bool := s.ac.tracker.access.report.source == some (ownAddress s)

/-! ### Peers -/

/-- The Peer Table entry of an address. -/
def peerEntry (s : State) (a : Nat) : PeerEntry := s.peers[a]?.getD PeerEntry.initial

/-- Whether an address byte names a peer of this station (R97, R102). -/
def isPeer (s : State) (a : Nat) : Bool := decide (a < roster s) && a != ownAddress s

/-! ### Message memory -/

/-- The blocks held by transmit entries (R144). -/
def queueBlocks (s : State) : Nat := (s.te.queue.map fun e => blocksFor e.length).sum

/-- The blocks held by receive records (R144). -/
def ringBlocks (s : State) : Nat := (s.re.ring.map fun r => blocksFor r.length).sum

/-- The blocks of the reservation of the open SUBMIT, 0 while it is absent (R144). -/
def reservedBlocks (s : State) : Nat :=
  match s.hp.submit with
  | some o => blocksFor o.length
  | none => 0

/-- The reservation (R144): absent, or the blocks of an open SUBMIT whose length is above 0. -/
def reservation (s : State) : Option Nat := if reservedBlocks s = 0 then none else some (reservedBlocks s)

/-! ### Transmit queue -/

/-- The frame kind of an entry (R103). -/
def TxEntry.frameKind (e : TxEntry) : FrameKind :=
  match e.kind, e.destination with
  | .probe, _ => .probe
  | .data, .all => .dataAll
  | .data, .peer _ => .dataDirect

/-- The transmit entry with a tag. -/
def findEntry (s : State) (tag : Tag) : Option TxEntry := s.te.queue.find? (·.tag == tag)

/-- A destination is held off (R98, R108): a peer with a hold-off present. -/
def heldOff (s : State) : Destination → Bool
  | .all => false
  | .peer a => (peerEntry s a).holdOff.isSome

/-- An entry is eligible, given the older entries of the queue (R108). -/
def eligible (s : State) (older : List TxEntry) (e : TxEntry) : Bool :=
  e.state == .waiting && older.all (fun o => o.destination != e.destination) && !heldOff s e.destination

/-- The oldest eligible entry of the rest of a queue, given the entries before it. -/
def selectFrom (s : State) (older : List TxEntry) : List TxEntry → Option TxEntry
  | [] => none
  | e :: rest => if eligible s older e then some e else selectFrom s (older ++ [e]) rest

/-- The entry the TE selects: the oldest eligible one (R109). -/
def selectEntry (s : State) : Option TxEntry := selectFrom s [] s.te.queue

/-- The need to send (R47). -/
def needToSend (s : State) : Bool :=
  match s.ac.station with
  | .resync => true
  | .online => s.ac.restartPending || (selectEntry s).isSome
  | .offline | .listening | .leaving | .halted => false

/-- Entries, records and the open SUBMIT that share the capacity of 32 (R104). -/
def sharedCount (s : State) : Nat :=
  s.te.queue.length + s.te.completions.length + (if s.hp.submit.isSome then 1 else 0)

/-! ### Notices -/

/-- A TAKE-NOTICE with reply OK is between its decision point and SEL high (R177). -/
def underRead (s : State) : Bool :=
  s.hp.transaction == .decided && s.hp.command == some .takeNotice
    && (s.hp.stream.map (·.reply)) == some .ok

end Sys2Proof.Machine
end

