-- ==== Sys2Proof/Machine/Update.lean ====
section
/-! DEFINITION. Updates of one block of the state at a time: every operation writes the state through these, and
Laws/State.lean says of each which field it changes and which it leaves. -/

namespace Sys2Proof.Machine

/-- Update the Line Interface. -/
def onLi (f : LineInterface → LineInterface) (s : State) : State := { s with li := f s.li }

/-- Update the Frame Unit. -/
def onFu (f : FrameUnit → FrameUnit) (s : State) : State := { s with fu := f s.fu }

/-- Update the Access Controller. -/
def onAc (f : AccessController → AccessController) (s : State) : State := { s with ac := f s.ac }

/-- Update the Peer Table. -/
def onPeers (f : Vector PeerEntry 32 → Vector PeerEntry 32) (s : State) : State := { s with peers := f s.peers }

/-- Update the Transmit Engine. -/
def onTe (f : TransmitEngine → TransmitEngine) (s : State) : State := { s with te := f s.te }

/-- Update the Receive Engine. -/
def onRe (f : ReceiveEngine → ReceiveEngine) (s : State) : State := { s with re := f s.re }

/-- Update the free count of the Block Pool. -/
def onFree (f : Nat → Nat) (s : State) : State := { s with freeBlocks := f s.freeBlocks }

/-- Update the Host Port. -/
def onHp (f : HostPort → HostPort) (s : State) : State := { s with hp := f s.hp }

/-- Update the notice queue. -/
def onNotices (f : List NoticeRecord → List NoticeRecord) (s : State) : State := { s with notices := f s.notices }

/-- Move on to the next free value. -/
def nextChoice (s : State) : State := { s with choice := s.choice + 1 }

/-- Update the deframer. -/
def onDeframer (f : Deframer → Deframer) (s : State) : State := onFu (fun u => { u with deframer := f u.deframer }) s

/-- Set the transmit framer. -/
def setFramer (x : Framer) (s : State) : State := onFu (fun u => { u with framer := x }) s

/-- Set the answer window. -/
def setWindow (x : Window) (s : State) : State := onFu (fun u => { u with window := x }) s

/-- Set the station state. -/
def setStation (x : StationState) (s : State) : State := onAc (fun a => { a with station := x }) s

/-- Update the round tracker. -/
def onTracker (f : RoundTracker → RoundTracker) (s : State) : State := onAc (fun a => { a with tracker := f a.tracker }) s

/-- Update the access record. -/
def onAccess (f : AccessRecord → AccessRecord) (s : State) : State :=
  onTracker (fun t => { t with access := f t.access }) s

/-- Update the order list. -/
def onOrder (f : List Nat → List Nat) (s : State) : State := onAc (fun a => { a with order := f a.order }) s

/-- Update the staging buffer. -/
def setStaging (x : Option Staging) (s : State) : State := onRe (fun r => { r with staging := x }) s

end Sys2Proof.Machine
end

