-- ==== Sys2Proof/Machine/Ops.lean ====
section
/-! DEFINITION. The operations that several commands share: the passing of bit times, notices, Peer Table updates, the
life of a transmit entry, transmissions, the need to send, the end of sensing, entry to OFFLINE and to HALTED, the
collision of an own frame, and the two resets. -/

namespace Sys2Proof.Machine

/-! ### Time -/

/-- The limit of the stuck timer (R14). -/
def stuckLimit : Nat := 4096

/-- The guard in bit times (R36). -/
def guardBits : Nat := 16

/-- A burst that goes on for n more bit times (R5). -/
def Burst.lengthen (n : Nat) (b : Burst) : Burst := { b with length := b.length + n }

/-- `n` bit times of quiet: the time base, the guard count (R36) and the rest-detect timer (R51) go on. -/
def passQuiet (n : Nat) (s : State) : State :=
  onTracker (fun t => { t with
      guard := t.guard.map (· + n)
      restDetect := if t.phase == .unaligned && !t.activitySeen then t.restDetect + n else t.restDetect })
    (onLi (fun l => { l with time := l.time + n }) s)

/-- `n` further bit times of the burst: the time base and the burst length go on (R5), and in ACTIVE the stuck timer,
which is held at 0 while the driver is DRIVING (R14) and stops in STUCK. -/
def passDriven (n : Nat) (s : State) : State :=
  onLi (fun l => { l with
      time := l.time + n
      burst := l.burst.map (Burst.lengthen n)
      stuckTimer := if l.sensing == .stuck then l.stuckTimer
        else if l.tx.isSome then 0 else min stuckLimit (l.stuckTimer + n) }) s

/-- `n` bit times pass and the line stays as it is. The time base runs only while the station senses (R1, R100). -/
def passTime (n : Nat) (s : State) : State :=
  match s.li.sensing with
  | .off => s
  | .quiet => passQuiet n s
  | .active => passDriven n s
  | .stuck => passDriven n s

/-- Bit times pass until the time base stands at `t`, if it does not already (log 5). -/
def runTo (t : Nat) (s : State) : State := passTime (t - s.li.time) s

/-- The burst goes on until it is `k` bit times long, if it is not already. -/
def burstTo (k : Nat) (s : State) : State := passTime (k - (s.li.burst.map (·.length)).getD k) s

/-! ### Notices (R175 to R177) -/

/-- Change the newest record. -/
def updateNewest (f : NoticeRecord → NoticeRecord) : List NoticeRecord → List NoticeRecord
  | [] => []
  | [r] => [f r]
  | r :: r' :: rest => r :: updateNewest f (r' :: rest)

/-- A count that stays at 255 (R173). -/
def countUp (n : Nat) : Nat := min 255 (n + 1)

/-- The newest record carries the same kind, subject and detail, and is not the record under read (R175, R177). -/
def folds (reading : Bool) (n : Notice) (q : List NoticeRecord) : Bool :=
  (q.getLast?.map (·.notice)) == some n && !(reading && q.length == 1)

/-- Add a notice to the queue: fold it, append it, or discard and count it (R175, R177). -/
def addNotice (reading : Bool) (n : Notice) (q : List NoticeRecord) : List NoticeRecord :=
  if folds reading n q then updateNewest (fun r => { r with repeats := countUp r.repeats }) q
  else if q.length < 16 then q ++ [{ notice := n, repeats := 0, lostAfter := 0 }]
  else updateNewest (fun r => { r with lostAfter := countUp r.lostAfter }) q

/-- A producer raises a notice (R174). -/
def raise (kind : NoticeKind) (subject : Option Nat) (detail : Option ErrorKind) (s : State) : State :=
  onNotices (addNotice (underRead s) { kind := kind, subject := subject, detail := detail }) s

/-! ### Peer Table (chapter 06) -/

/-- Change the entry of one address. -/
def updatePeer (a : Nat) (f : PeerEntry → PeerEntry) (s : State) : State :=
  onPeers (fun v => v.setIfInBounds a (f (peerEntry s a))) s

/-- A valid header from peer `a` has been read (R90). -/
def peerHeard (a : Nat) (s : State) : State :=
  let back := (peerEntry s a).presence == .silent
  let s := updatePeer a (fun e => { e with presence := .present, unanswered := 0 }) s
  if back then raise .peerBack (some a) none s else s

/-- An attempt to peer `a` went unanswered (R91). -/
def peerUnanswered (a : Nat) (s : State) : State :=
  let e := peerEntry s a
  let s' := updatePeer a (fun e => { e with unanswered := min 3 (e.unanswered + 1) }) s
  if e.unanswered == 2 && e.presence != .silent then
    raise .peerSilent (some a) none (updatePeer a (fun e => { e with presence := .silent }) s')
  else s'

/-- The TE has taken a valid answer from peer `a` (R91). -/
def peerAnswered (a : Nat) (s : State) : State := updatePeer a (fun e => { e with unanswered := 0 }) s

/-- Set the hold-off of peer `a`, H × 256 bit times from now (R98). -/
def setHoldOff (a : Nat) (s : State) : State :=
  updatePeer a (fun e => { e with holdOff := some (.running (s.li.time + s.ac.setup.holdOff * 256)) }) s

/-- Stop a hold-off with the time base: the expiry time becomes a remaining time (R100). -/
def PeerEntry.freeze (now : Nat) (e : PeerEntry) : PeerEntry :=
  match e.holdOff with
  | some (.running expiry) => { e with holdOff := some (.frozen (expiry - now)) }
  | some (.frozen _) => e
  | none => e

/-- The time base stops: every hold-off that is present stays present with its remaining time (R100). -/
def freezeHoldOffs (s : State) : State := onPeers (fun v => v.map (PeerEntry.freeze s.li.time)) s

/-! ### Transmit entries (chapter 07) -/

/-- Change the entry with a tag. -/
def updateEntry (tag : Tag) (f : TxEntry → TxEntry) (s : State) : State :=
  onTe (fun t => { t with queue := t.queue.map fun e => if e.tag == tag then f e else e }) s

/-- The completion record of an entry (R118). -/
def TxEntry.completion (e : TxEntry) (outcome : MessageOutcome) (note : Bool) : Completion :=
  { tag := e.tag, destination := e.destination, outcome := outcome, attempts := e.attempts, sequence := e.sequence,
    duplicateNote := note, lastAnswer := e.lastAnswer }

/-- The next send sequence of the destination goes on when a DATA-DIRECT entry that holds a sequence finishes (R94). -/
def advanceSequence (e : TxEntry) (s : State) : State :=
  match e.destination, e.sequence with
  | .peer a, some _ => updatePeer a (fun p => { p with nextSend := p.nextSend + 1 }) s
  | _, _ => s

/-- The entry with a tag finishes: it is removed, its blocks are returned, its sequence is advanced, and its completion
record is appended, in this order (R117). -/
def finishEntry (tag : Tag) (outcome : MessageOutcome) (note : Bool) (s : State) : State :=
  match findEntry s tag with
  | none => s
  | some e =>
    let s := onTe (fun t => { t with queue := t.queue.eraseP (·.tag == tag) }) s
    let s := onFree (· + blocksFor e.length) s
    let s := advanceSequence e s
    onTe (fun t => { t with completions := t.completions ++ [e.completion outcome note] }) s

/-- The attempt of an entry ended before its frame went out whole: back to WAITING, or CANCELLED if a cancel is pending
(R110, R111, R121). -/
def abortAttempt (tag : Tag) (s : State) : State :=
  match findEntry s tag with
  | none => s
  | some e =>
    if e.cancelPending then finishEntry tag .cancelled false s
    else updateEntry tag (fun e => { e with state := .waiting }) s

/-- How a unicast attempt whose frame passed ends (R114): the final outcome with its duplicate note, or none when the
entry returns to WAITING. `silent` is the destination's presence after the Peer Table's update. -/
def finalOutcome (retry attempts : Nat) (silent : Bool) : Option AnswerCode → Option (MessageOutcome × Bool)
  | some .accepted => some (.delivered, false)
  | some .duplicate => some (.delivered, true)
  | some .present => some (.present, false)
  | some .closed => some (.refused, false)
  | some .full => if retry ≤ attempts then some (.full, false) else none
  | some .checkFail => if retry ≤ attempts then some (.unanswered, false) else none
  | none => if retry ≤ attempts || silent then some (.unanswered, false) else none

/-- What a judgement does to the entry's last answer code and to its peer, before the entry finishes or returns (R114). -/
def recordJudgement (tag : Tag) (a : Nat) (judgement : Option AnswerCode) (s : State) : State :=
  match judgement with
  | none => peerUnanswered a s
  | some c =>
    let s := updateEntry tag (fun e => { e with lastAnswer := some c }) (peerAnswered a s)
    if c == .full then setHoldOff a s else s

/-- The TE takes the outcome of an attempt whose frame passed (R113, R114, R115, R121). -/
def applyOutcome (tag : Tag) (judgement : Option AnswerCode) (s : State) : State :=
  match findEntry s tag with
  | none => s
  | some e =>
    match e.destination with
    | .all => finishEntry tag .sent false s
    | .peer a =>
      let s' := recordJudgement tag a judgement s
      match finalOutcome s.ac.setup.retry e.attempts ((peerEntry s' a).presence == .silent) judgement with
      | some (outcome, note) => finishEntry tag outcome note s'
      | none =>
        if e.cancelPending then finishEntry tag .cancelled false s'
        else updateEntry tag (fun e => { e with state := .waiting }) s'

/-- The judgement the answer window hands over at the access end or the stuck event; a window still OPEN is judged
unanswered there (R33). -/
def Window.judgement : Window → Option AnswerCode
  | .judged _ _ _ a => a
  | .opened _ _ _ _ => none
  | .closed => none

/-- At the access end or the stuck event the TE takes the outcome of a passed own claim that carries an entry, and the
answer window closes (R33, R45, R113, R116). -/
def takeOutcome (s : State) : State :=
  let s' := match s.ac.tracker.access.claim with
    | some c =>
      match c.progress, c.content with
      | .passed, .entry tag => applyOutcome tag s.fu.window.judgement s
      | _, _ => s
    | none => s
  setWindow .closed s'

/-- The flush: every entry finishes WITHDRAWN, oldest first (R123). -/
def flushQueue (s : State) : State :=
  s.te.queue.foldl (fun s e => finishEntry e.tag .withdrawn false s) s

/-! ### Transmissions (R8 to R13) -/

/-- The burst under way when the driver begins in a bit time: its own first bit time makes it own (R5), and a later one leaves
it as it is marked (log 23). A burst marked partial is never own (R4, R11). -/
def Burst.drivenFrom (now : Nat) (b : Burst) : Burst :=
  { b with isOwn := b.isOwn || (b.start == now && !b.isPartial) }

/-- The driver starts a transmission with its first symbol in the present bit time (R10). If the active event of this bit
time has been taken already, its burst is marked own here (R5); otherwise the active event marks it. -/
def startTransmission (owner : Owner) (symbols : List Bool) (s : State) : State :=
  onLi (fun l => { l with
    tx := some { owner := owner, symbols := symbols, start := l.time }
    stuckTimer := 0
    burst := l.burst.map (Burst.drivenFrom l.time) }) s

/-- The driver is released; the stuck timer restarts from 0 (R11, R12, R14). -/
def releaseDriver (s : State) : State := onLi (fun l => { l with tx := none, stuckTimer := 0 }) s

/-- Set the own claim of the access record. -/
def setClaim (c : Option OwnClaim) (s : State) : State := onAccess (fun a => { a with claim := c }) s

/-- Set the progress of the own claim, if there is one. -/
def setProgress (p : Progress) (s : State) : State :=
  onAccess (fun a => { a with claim := a.claim.map fun c => { c with progress := p } }) s

/-- In REST a need to send requests a wake mark at once (R47); a claim that still stands WITHDRAWN gives way to the wake
(log 26). A request while the driver is DRIVING is not taken (R10),
which has no effect on a wake. -/
def wakeIfNeeded (s : State) : State :=
  if s.ac.tracker.phase == .rest && needToSend s && !claimOpen s then
    let s' := setClaim (some { slot := none, content := .wake, progress := .wake, markedAt := s.li.time }) s
    if driving s then s' else startTransmission .mark markSymbols s'
  else s

/-! ### The end of sensing, OFFLINE and HALTED -/

/-- Sensing ends: the driver is released, the LI, the FU, the round tracker and the staging buffer take their first
values, and the hold-offs stop with the time base (R3, R13, R34, R100, R126). -/
def endSensing (s : State) : State :=
  let s := freezeHoldOffs s
  let s := onLi (fun l => { l with sensing := .off, tx := none, burst := none, stuckTimer := 0 }) s
  let s := onFu (fun _ => FrameUnit.initial) s
  let s := onTracker (fun _ => RoundTracker.initial) s
  setStaging none s

/-- Entry to OFFLINE by LEAVE: sensing ends, the queue is flushed, restart pending is cleared, the state becomes OFFLINE,
in this order (R84). -/
def enterOffline (s : State) : State :=
  setStation .offline (onAc (fun a => { a with restartPending := false }) (flushQueue (endSensing s)))

/-- An address conflict: ADDRESS-CONFLICT is raised with the own address as subject, and the station enters HALTED, where
sensing ends and everything else is kept (R60, R73, R85). -/
def halt (s : State) : State :=
  setStation .halted (endSensing (raise .addressConflict (some (ownAddress s)) none s))

/-! ### Collision (R59, R73) -/

/-- The own claim is for an ORDER-RESET in the address slot (R58, R73). -/
def addressSlotClaim (s : State) (c : OwnClaim) : Bool :=
  c.content == .orderReset && (match c.slot with | some k => decide (k < roster s) | none => false)

/-- An own frame met an echo mismatch, or its request was refused: the claim becomes MISMATCHED, the TE takes the
mismatch, COLLISION is raised, and an ORDER-RESET of the address slot counts; the fourth takes the station to HALTED
(R42, R59, R73). -/
def frameMismatch (s : State) : State :=
  match s.ac.tracker.access.claim with
  | none => s
  | some c =>
    let s1 := setProgress .mismatched s
    let s2 := match c.content with
      | .entry tag => abortAttempt tag s1
      | .orderReset => s1
      | .wake => s1
    let s3 := raise .collision none none s2
    if addressSlotClaim s c then
      let s4 := onAc (fun a => { a with collisions := min 4 (a.collisions + 1) }) s3
      if s4.ac.collisions == 4 then halt s4 else s4
    else s3

/-- A claim mark met an echo mismatch, or was not taken: the claim is withdrawn, and the TE takes the aborted attempt
(R41, R110). -/
def withdrawClaim (s : State) : State :=
  match s.ac.tracker.access.claim with
  | none => s
  | some c =>
    let s' := setProgress .withdrawn s
    match c.content with
    | .entry tag => abortAttempt tag s'
    | .orderReset => s'
    | .wake => s'

/-! ### Resets (R87, R88) -/

/-- The initial values of every block (R87). The level of the line, the commands that wait and the count of free values
are not the station's; `setup` and `hp` are what the reset leaves in the setup record and the Host Port. -/
def initialValues (setup : SetupRecord) (hp : HostPort) (s : State) : State :=
  { State.reset with
    li := { LineInterface.initial with lineDriven := s.li.lineDriven }
    ac := { AccessController.initial with setup := setup }
    hp := hp
    resetHeld := s.resetHeld
    choice := s.choice
    pending := s.pending }

/-- The start of a hard reset (R87): initial values, an invalid setup record, every class enabled; a transaction in
progress is dropped (R159); the reset is held. -/
def hardResetState (s : State) : State :=
  let hp := HostPort.between AttentionMask.all
  let hp := if s.hp.transaction == .idle then hp else { hp with transaction := .dropped }
  { initialValues SetupRecord.initial hp s with resetHeld := true }

/-- The station reset (R88): as a hard reset, but the setup record and the attention mask are kept. -/
def stationReset (s : State) : State := initialValues s.ac.setup (HostPort.between s.hp.mask) s

end Sys2Proof.Machine
end

