-- ==== Sys2Proof/Machine/FrameUnit.lean ====
section
/-! DEFINITION. The Frame Unit and the Receive Engine (chapters 02 and 08): the deframer's readings and errors, the frame
end and the decisions taken there, the answer, and the answer window; with the meanings of SYNC_FOUND, NO_SYNC, HEADER_JUDGED,
BODY_CHECK_TAKEN, OVERRUN and ANSWER_GAP_EXPIRY. -/

namespace Sys2Proof.Machine

/-! ### Reports -/

/-- The FU reports to the AC on the candidate under way; the access record keeps the report if that candidate is its
first foreign one (R43). -/
def reportFrame (r : FrameReport) (s : State) : State :=
  onAccess (fun a => { a with report := if a.following then r else a.report }) s

/-- A receive error raises FRAME-ERROR (R29). -/
def frameError (kind : ErrorKind) (subject : Option Nat) (s : State) : State := raise .frameError subject (some kind) s

/-- The deframer drops the rest of the candidate (R28). -/
def discardCandidate (s : State) : State := onDeframer (fun d => { d with phase := .discard }) s

/-- The deframer returns to QUIET with its first values (log 13). -/
def quietDeframer (s : State) : State := onDeframer (fun _ => Deframer.initial) s

/-- The source of the valid header the deframer holds. -/
def deframedSource (s : State) : Option Nat := s.fu.deframer.header.map Header.source

/-! ### HUNT (R24) -/

/-- The last 16 readings, newest first, when they match the sync pattern. -/
def syncReadings : List Reading := (syncSymbols.map Reading.ofBit).reverse

/-- The last readings after one more. -/
def recentWith (r : Reading) (s : State) : List Reading := (r :: s.fu.deframer.recent).take 16

/-- A reading in HUNT: sync found, NO-SYNC at reading 32, or the search goes on (R24). -/
def takeHunt (r : Reading) (s : State) : State :=
  let recent := recentWith r s
  let s' := onDeframer (fun d => { d with recent := recent, count := d.count + 1 }) s
  if recent == syncReadings then
    onDeframer (fun d => { d with phase := .header, headerBytes := [], bits := [], headerCheck := 0xFF }) s'
  else if 32 ≤ s'.fu.deframer.count then
    frameError .noSync none (reportFrame .headerInvalid (discardCandidate s'))
  else s'

/-! ### HEADER (R25) -/

/-- Error HEADER: the deframer enters DISCARD, reports header-invalid and raises FRAME-ERROR (R25). -/
def headerError (s : State) : State := frameError .header none (reportFrame .headerInvalid (discardCandidate s))

/-- The staging buffer that a valid header opens, if it is a DATA frame for this station (R127). -/
def stagingFor (own : Nat) : Header → Option Staging
  | .frame h =>
    if h.source = own then none
    else match h.kind with
      | .dataDirect =>
        if h.destination = own then
          some { source := h.source, kind := .direct, sequence := h.sequence, length := h.length, bytes := [] }
        else none
      | .dataAll => some { source := h.source, kind := .all, sequence := h.sequence, length := h.length, bytes := [] }
      | .probe | .orderReset => none
  | .answer _ => none

/-- A DATA header for this station opens the staging buffer, in place of one still open (R127). -/
def openStaging (h : Header) (s : State) : State :=
  match stagingFor (ownAddress s) h with
  | some b => setStaging (some b) s
  | none => s

/-- The deframer after a valid header (R25). -/
def Deframer.enterBody (h : Header) (d : Deframer) : Deframer :=
  { d with phase := if h.bodySymbols = 0 then .tail else .body, header := some h, expected := h.bodySymbols, bits := [],
           bodyBytes := [], bodyCheck := 0xFFFF, bodyFailed := false, tail := 0 }

/-- A valid header: header-valid to the AC, the source to the PT unless it is this station's own, the staging buffer, and
the count of symbols still expected (R25, R90, R127). -/
def headerValid (h : Header) (s : State) : State :=
  let s := onDeframer (Deframer.enterBody h) s
  let s := reportFrame (.header h .awaited none) s
  let s := if h.source = ownAddress s then s else peerHeard h.source s
  openStaging h s

/-- A header byte is complete: the last one brings the judgement, an earlier one is fed to the check (R25). -/
def takeHeaderByte (b : Byte) (s : State) : State :=
  let d := s.fu.deframer
  let bytes := d.headerBytes ++ [b]
  let s := onDeframer (fun d => { d with headerBytes := bytes, bits := [] }) s
  if bytes.length = headerLength bytes then
    match judgeHeader (roster s) bytes d.headerCheck with
    | some h => headerValid h s
    | none => headerError s
  else onDeframer (fun d => { d with headerCheck := headerCheckByte d.headerCheck b }) s

/-- A header bit (R25). -/
def takeHeaderBit (b : Bool) (s : State) : State :=
  let bits := s.fu.deframer.bits ++ [b]
  if bits.length = 8 then takeHeaderByte (byteOfBits bits) s else onDeframer (fun d => { d with bits := bits }) s

/-- A reading in HEADER (R25). -/
def takeHeader (r : Reading) (s : State) : State :=
  match r with
  | .one => takeHeaderBit true s
  | .zero => takeHeaderBit false s
  | .bad => headerError s

/-! ### BODY and TAIL (R26, R27) -/

/-- The payload length of the frame being received. -/
def Deframer.payloadLength (d : Deframer) : Nat := (d.header.map Header.payloadLength).getD 0

/-- The body check received differs from the accumulator (R26). -/
def Deframer.checkDiffers (d : Deframer) : Bool :=
  wordOfBytes (d.bodyBytes.getD (d.payloadLength + 1) 0) (d.bodyBytes.getD d.payloadLength 0) != d.bodyCheck

/-- The frame being received is an ORDER-RESET. -/
def Deframer.isOrderReset (d : Deframer) : Bool :=
  match d.header with
  | some (.frame h) => h.kind == .orderReset
  | some (.answer _) => false
  | none => false

/-- The restart indicator of an ORDER-RESET is neither 0 nor 1 (R18). -/
def Deframer.badIndicator (d : Deframer) : Bool :=
  d.isOrderReset && d.bodyBytes.getD 1 0 != 0 && d.bodyBytes.getD 1 0 != 1

/-- The body of an ORDER-RESET as it is reported (R18, R27). -/
def Deframer.orderBody (d : Deframer) : Option OrderResetBody :=
  if d.isOrderReset then some { roster := (d.bodyBytes.getD 0 0).toNat, restart := d.bodyBytes.getD 1 0 == 1 } else none

/-- A body byte is complete: a payload byte is fed to the body check and passed to the staging buffer; a check byte is
kept (R26, R127). -/
def takeBodyByte (b : Byte) (s : State) : State :=
  let payload := s.fu.deframer.bodyBytes.length < s.fu.deframer.payloadLength
  let s := onDeframer (fun d => { d with
      bits := [], bodyBytes := d.bodyBytes ++ [b],
      bodyCheck := if payload then bodyCheckByte d.bodyCheck b else d.bodyCheck }) s
  if payload then onRe (fun r => { r with staging := r.staging.map fun g => { g with bytes := g.bytes ++ [b] } }) s else s

/-- The body is complete: the check is compared, a bad restart indicator found, and the deframer enters TAIL (R26). -/
def bodyComplete (s : State) : State :=
  onDeframer (fun d => { d with phase := .tail, tail := 0,
                                bodyFailed := d.bodyFailed || d.checkDiffers || d.badIndicator }) s

/-- The bit a reading in the body stands for; a bad reading's is a free value (log 7). -/
def readingBit (r : Reading) (s : State) : Bool :=
  match r with
  | .one => true
  | .zero => false
  | .bad => Config.badReadingBit s.choice

/-- A reading in BODY (R26). -/
def takeBody (r : Reading) (s : State) : State :=
  let bits := s.fu.deframer.bits ++ [readingBit r s]
  let s := if r == .bad then nextChoice s else s
  let s := onDeframer (fun d => { d with bits := bits, expected := d.expected - 1,
                                         bodyFailed := d.bodyFailed || r == .bad }) s
  let s := if bits.length = 8 then takeBodyByte (byteOfBits bits) s else s
  if s.fu.deframer.expected = 0 then bodyComplete s else s

/-- The answer window is judged (R32, R33). -/
def judgeWindow (answer : Option AnswerCode) (s : State) : State :=
  match s.fu.window with
  | .opened k d q _ => setWindow (.judged k d q answer) s
  | .judged _ _ _ _ => s
  | .closed => s

/-- The window is OPEN and the burst under way is the first not own since the own frame's burst ended (R32). -/
def windowListens (s : State) : Bool :=
  match s.fu.window with
  | .opened _ _ _ armed => armed && !((s.li.burst.map (·.isOwn)).getD false)
  | .judged _ _ _ _ => false
  | .closed => false

/-- The deframer holds an ANSWER header. -/
def Deframer.isAnswer (d : Deframer) : Bool :=
  match d.header with
  | some (.answer _) => true
  | some (.frame _) => false
  | none => false

/-- An overrun (R27): frame-end BODY to the AC at once, FRAME-ERROR with the source, no decision of the RE; an ANSWER that
overruns reaches the answer window as a BODY end. -/
def takeOverrun (s : State) : State :=
  let answerEnd := s.fu.deframer.isAnswer && windowListens s
  let source := deframedSource s
  let s := match s.fu.deframer.header with
    | some h => reportFrame (.header h .body none) s
    | none => s
  let s := if answerEnd then judgeWindow none s else s
  frameError .body source (discardCandidate (setStaging none s))

/-- A reading in TAIL: an end symbol, or an overrun (R26, R27). -/
def takeTail (r : Reading) (s : State) : State :=
  if 2 ≤ s.fu.deframer.tail then takeOverrun s
  else onDeframer (fun d => { d with tail := d.tail + 1, bodyFailed := d.bodyFailed || r != .one }) s

/-- The deframer takes a reading (R24 to R28). -/
def takeReading (r : Reading) (s : State) : State :=
  match s.fu.deframer.phase with
  | .quiet => s
  | .hunt => takeHunt r s
  | .header => takeHeader r s
  | .body => takeBody r s
  | .tail => takeTail r s
  | .discard => s

/-! ### The decisions of the Receive Engine (R128 to R136) -/

/-- There is room for a frame of `length` bytes: a place in the ring and its blocks in the pool (R129, R135, R148). -/
def roomFor (length : Nat) (s : State) : Bool := decide (s.re.ring.length < 32) && decide (blocksFor length ≤ s.freeBlocks)

/-- Store a frame: take its blocks, append its record with the missed-broadcast count, and set that count to 0
(R130, R135). -/
def storeFrame (kind : RecordKind) (h : FrameHeader) (s : State) : State :=
  let payload := ((s.re.staging.map (·.bytes)).getD []).take h.length
  let record : RxRecord :=
    { source := h.source, kind := kind, sequence := if kind == .direct then some h.sequence else none,
      length := h.length, missed := s.re.missed, payload := payload }
  onFree (· - blocksFor h.length) (onRe (fun r => { r with ring := r.ring ++ [record], missed := 0 }) s)

/-- The decision for a DATA-DIRECT addressed to this station: the answer code (R129). -/
def directCode (good : Bool) (h : FrameHeader) (s : State) : AnswerCode :=
  if !good then .checkFail
  else if (peerEntry s h.source).gate == .closed then .closed
  else if (peerEntry s h.source).lastAccepted == some h.sequence then .duplicate
  else if !roomFor h.length s then .full
  else .accepted

/-- What the RE does with the code it chose (R129, R130, R132). -/
def directEffect (code : AnswerCode) (h : FrameHeader) (s : State) : State :=
  match code with
  | .accepted =>
    updatePeer h.source (fun e => { e with lastAccepted := some h.sequence }) (storeFrame .direct h s)
  | .full => raise .refusedFull (some h.source) none s
  | .duplicate | .closed | .checkFail | .present => s

/-- The answer becomes due when the answer gap has run, 2 bit times after the quiet event (R30). -/
def answerDue (destination : Nat) (code : AnswerCode) (echo : Seq) (s : State) : State :=
  setFramer (.answerDue { destination := destination, code := code, echo := echo } (s.li.time + 2)) s

/-- The decision at the frame end of a DATA-DIRECT addressed to this station (R129, R133). -/
def directDecision (good : Bool) (h : FrameHeader) (s : State) : State :=
  let code := directCode good h s
  answerDue h.source code h.sequence (directEffect code h s)

/-- The decision at the frame end of a PROBE addressed to this station (R134). -/
def probeDecision (good : Bool) (h : FrameHeader) (s : State) : State :=
  if good then answerDue h.source .present 0 s else s

/-- The decision at the frame end of a DATA-ALL (R135, R136). -/
def broadcastDecision (good : Bool) (h : FrameHeader) (s : State) : State :=
  if !good then s
  else if (peerEntry s h.source).gate == .closed then s
  else if !roomFor h.length s then onRe (fun r => { r with missed := countUp r.missed }) s
  else storeFrame .all h s

/-- The RE at a frame end (R128); the staging buffer is absent once the decision has been taken (R127). -/
def receiveDecision (good : Bool) (header : Header) (s : State) : State :=
  let s' := match header with
    | .answer _ => s
    | .frame h =>
      if h.source = ownAddress s then s
      else match h.kind with
        | .dataDirect => if h.destination = ownAddress s then directDecision good h s else s
        | .probe => if h.destination = ownAddress s then probeDecision good h s else s
        | .dataAll => broadcastDecision good h s
        | .orderReset => s
  setStaging none s'

/-! ### The end of a candidate (R24 to R28) -/

/-- The frame end: reports to the AC and the RE, and FRAME-ERROR if the body failed (R27). -/
def frameEnd (h : Header) (s : State) : State :=
  let good := !s.fu.deframer.bodyFailed
  let order := if good then s.fu.deframer.orderBody else none
  let s := reportFrame (.header h (if good then .good else .body) order) s
  let s := if good then s else frameError .body (some h.source) s
  receiveDecision good h s

/-- Error TRUNCATED, with the header fields if they are known (R24, R25, R26, R127). -/
def truncatedEnd (s : State) : State :=
  let source := deframedSource s
  let s := match s.fu.deframer.header with
    | some h => reportFrame (.header h .truncated none) s
    | none => reportFrame .truncated s
  frameError .truncated source (setStaging none s)

/-- The quiet event ends the candidate (R24 to R28): truncated before the second end symbol, a frame end after it. -/
def candidateEnd (s : State) : State :=
  let s' := match s.fu.deframer.phase with
    | .quiet => s
    | .hunt => truncatedEnd s
    | .header => truncatedEnd s
    | .body => truncatedEnd s
    | .tail =>
      if s.fu.deframer.tail < 2 then truncatedEnd s
      else match s.fu.deframer.header with
        | some h => frameEnd h s
        | none => s
    | .discard => s
  quietDeframer s'

/-- The deframer holds a whole frame that ended good. -/
def Deframer.endsGood (d : Deframer) : Bool := d.phase == .tail && d.tail == 2 && !d.bodyFailed

/-- The code fits the kind of the own frame (R32). -/
def codeFits (kind : FrameKind) (code : AnswerCode) : Bool :=
  if kind == .probe then code == .present else code != .present

/-- The code of the valid answer that the deframer holds for the open window, or none (R32). -/
def windowAnswer (s : State) : Option AnswerCode :=
  match s.fu.window, s.fu.deframer.header with
  | .opened kind destination sequence _, some (.answer a) =>
    if s.fu.deframer.endsGood && a.source == destination && a.destination == ownAddress s && a.echo == sequence
        && codeFits kind a.code then some a.code else none
  | _, _ => none

/-! ### The meanings -/

/-- The LI passes readings of the burst under way to the deframer: it is a frame candidate, not marked partial (R6). -/
def passesReadings (s : State) : Bool :=
  match s.li.burst with
  | some b => b.candidate && !b.isPartial
  | none => false

/-- The LI hands on one more reading; the burst is at least that many bit times long (R6). -/
def handReading (s : State) : State :=
  let s := onLi (fun l => { l with burst := l.burst.map fun b => { b with handed := b.handed + 1 } }) s
  burstTo ((s.li.burst.map (·.handed)).getD 0) s

/-- A reading is handed on and taken (R6, R24 to R28). -/
def readingStep (r : Reading) (s : State) : State := takeReading r (handReading s)

/-- An undriven bit time of the burst has been read and is held (R6). -/
def undrivenHeld (s : State) : Bool := (s.li.burst.map (·.held)).getD false

/-- Hold an undriven bit time, or hold none (R6). -/
def setHeld (x : Bool) (s : State) : State :=
  onLi (fun l => { l with burst := l.burst.map fun b => { b with held := x } }) s

/-- A driven bit time follows: an undriven one that is held is passed on first, as a bad reading (R6). -/
def passHeld (s : State) : State := if undrivenHeld s then readingStep .bad (setHeld false s) else s

/-- The reading of a driven bit time is passed on, behind the undriven one that is held, if there is one (R6). -/
def passReading (r : Reading) (s : State) : State := readingStep r (passHeld s)

/-- One of the readings that a driven bit time passes on is due to bring an event: the held one's, or its own. -/
def bringsEvent (due : Reading → State → Bool) (r : Reading) (s : State) : Bool :=
  passesReadings s && ((undrivenHeld s && due .bad s) || due r (passHeld s))

/-- The reading completes the sync pattern (R24). -/
def syncDue (r : Reading) (s : State) : Bool :=
  s.fu.deframer.phase == .hunt && recentWith r s == syncReadings

/-- SYNC_FOUND (R24): the reading that completes the sync pattern takes the deframer to HEADER. -/
def execSyncFound (s : State) : Host.Outcome State Fault Refusal :=
  .next (if bringsEvent syncDue .zero s then passReading .zero s else s)

/-- Reading 32 is due and brings no sync (R24). -/
def noSyncDue (r : Reading) (s : State) : Bool :=
  s.fu.deframer.phase == .hunt && decide (31 ≤ s.fu.deframer.count) && recentWith r s != syncReadings

/-- NO_SYNC (R24): reading 32 is taken without a sync found. -/
def execNoSync (r : Reading) (s : State) : Host.Outcome State Fault Refusal :=
  .next (if bringsEvent noSyncDue r s then passReading r s else s)

/-- The last header reading is due, or the reading is bad (R25). -/
def headerDue (r : Reading) (s : State) : Bool :=
  s.fu.deframer.phase == .header
    && (r == .bad || (s.fu.deframer.bits.length == 7
      && s.fu.deframer.headerBytes.length + 1 == headerLength s.fu.deframer.headerBytes))

/-- HEADER_JUDGED (R25): the last header reading, or a bad one, brings the judgement. -/
def execHeaderJudged (r : Reading) (s : State) : Host.Outcome State Fault Refusal :=
  .next (if bringsEvent headerDue r s then passReading r s else s)

/-- The last reading of the body is due (R26). -/
def bodyDue (s : State) : Bool := s.fu.deframer.phase == .body && s.fu.deframer.expected == 1

/-- BODY_CHECK_TAKEN (R26): the count of body symbols reaches 0 and the check is compared. -/
def execBodyCheckTaken (r : Reading) (s : State) : Host.Outcome State Fault Refusal :=
  .next (if bringsEvent (fun _ => bodyDue) r s then passReading r s else s)

/-- The second end symbol has been taken (R27). -/
def overrunDue (s : State) : Bool := s.fu.deframer.phase == .tail && decide (2 ≤ s.fu.deframer.tail)

/-- OVERRUN (R27): a reading after the second end symbol. -/
def execOverrun (r : Reading) (s : State) : Host.Outcome State Fault Refusal :=
  .next (if bringsEvent (fun _ => overrunDue) r s then passReading r s else s)

/-- The answer gap has run: the answer goes to the LI; if the driver is DRIVING, it is lost (R10, R30, R31). -/
def sendAnswer (a : Answer) (s : State) : State :=
  if driving s then setFramer .idle s
  else setFramer .answer (startTransmission .answer (answerSymbols (ownAddress s) a) s)

/-- ANSWER_GAP_EXPIRY (R30). -/
def execAnswerGapExpiry (s : State) : Host.Outcome State Fault Refusal :=
  .next (match s.fu.framer with
    | .answerDue a due => sendAnswer a (runTo due s)
    | .idle => s
    | .frame _ => s
    | .answer => s)

end Sys2Proof.Machine
end

