-- ==== Sys2Proof/Machine/LineInterface.lean ====
section
/-! DEFINITION. The Line Interface (chapter 01) with what its events bring about in the AC, the FU and the TE: the meanings
of ACTIVE_EVENT, FRAME_CANDIDATE, QUIET_EVENT, ECHO_PASS, ECHO_MISMATCH, STUCK, FREE and READING. -/

namespace Sys2Proof.Machine

/-! ### The active event (R5, R38, R48, R49) -/

/-- A new burst (R5): own if this station's driver began driving at this bit time. A transmission that is taken after this
event in the same bit time marks it too (Burst.drivenFrom). -/
def Burst.begin (l : LineInterface) : Burst :=
  { start := l.time, length := 1, isOwn := l.tx.any (·.start == l.time), isPartial := false, candidate := false,
    handed := 0, held := false }

/-- The LI enters ACTIVE with a new burst; the stuck timer starts from 0 (R5, R14). -/
def beginBurst (s : State) : State :=
  onLi (fun l => { l with sensing := .active, burst := some (Burst.begin l), stuckTimer := 0, lineDriven := true }) s

/-- The phase after an active event: it ends a round and ends rest (R38, R48, R49). -/
def Phase.afterActivity : Phase → Phase
  | .unaligned => .unaligned
  | .round => .access
  | .access => .access
  | .rest => .access

/-- The AC takes an active event: the guard count stops, the unclaimed count becomes 0, and the slot of the round's first
burst is kept until the burst is classed (R36, R38, R46, R48, R49). -/
def activeAtAc (s : State) : State :=
  let slot := if s.ac.tracker.phase == .round then some (currentSlot s) else none
  onTracker (fun t => { t with
      phase := t.phase.afterActivity
      unclaimed := 0
      guard := none
      activitySeen := t.activitySeen || t.phase == .unaligned
      access := { t.access with burstSlot := slot } }) s

/-- The active event (R5). -/
def activeEvent (s : State) : State := activeAtAc (beginBurst s)

/-- ACTIVE_EVENT (R5): the first driven bit time after quiet. In OFF the LI reads nothing, and only the level of the pair
changes; in ACTIVE and STUCK the line is driven already. -/
def execActiveEvent (after : Nat) (s : State) : Host.Outcome State Fault Refusal :=
  .next (match s.li.sensing with
    | .quiet => activeEvent (passTime after s)
    | .off => onLi (fun l => { l with lineDriven := true }) s
    | .active => s
    | .stuck => s)

/-! ### The frame candidate (R6, R23, R43) -/

/-- The deframer takes a candidate (R23): a foreign one to HUNT, an own one to DISCARD. -/
def Deframer.start (own : Bool) (d : Deframer) : Deframer :=
  if d.phase == .quiet then { Deframer.initial with phase := if own then .discard else .hunt } else d

/-- The access record meets a foreign candidate: the first one is the one it follows (R43, R49). -/
def AccessRecord.meetCandidate (own : Bool) (a : AccessRecord) : AccessRecord :=
  if own || a.candidateSeen then a else { a with candidateSeen := true, following := true }

/-- The burst becomes a frame candidate (R6). -/
def candidateStep (b : Burst) (s : State) : State :=
  let s := burstTo 6 s
  let s := onLi (fun l => { l with burst := l.burst.map fun b => { b with candidate := true } }) s
  let s := onDeframer (Deframer.start b.isOwn) s
  onAccess (AccessRecord.meetCandidate b.isOwn) s

/-- FRAME_CANDIDATE (R6): the sixth bit time of a burst that is not partial. -/
def execFrameCandidate (s : State) : Host.Outcome State Fault Refusal :=
  .next (match s.li.sensing, s.li.burst with
    | .active, some b => if b.isPartial || b.candidate then s else candidateStep b s
    | _, _ => s)

/-! ### The end of a burst (R7, R15, R38) -/

/-- A burst of 1 to 5 bit times that is not partial is a mark (R7). -/
def Burst.isMark (b : Burst) : Bool := !b.isPartial && decide (b.length ≤ 5)

/-- The window at the end of a burst (R32): the own frame's burst arms it; the first foreign mark or candidate after that
judges it; a partial burst is neither. -/
def windowAtBurstEnd (b : Burst) (answer : Option AnswerCode) (s : State) : State :=
  match s.fu.window with
  | .opened k d q armed =>
    if !armed then setWindow (.opened k d q true) s
    else if b.isOwn || b.isPartial then s
    else judgeWindow answer s
  | .judged _ _ _ _ => s
  | .closed => s

/-- The AC at the end of a burst: a claim mark sets the observed mark slot, the candidate under way is over, and in ACCESS
and UNALIGNED the guard count starts at 2 (R36, R38, R53). -/
def burstEndAtAc (b : Burst) (s : State) : State :=
  onTracker (fun t => { t with
      guard := if t.phase == .access || t.phase == .unaligned then some 2 else t.guard
      access := { t.access with
        observed := if b.isMark && t.access.burstSlot.isSome then t.access.burstSlot else t.access.observed
        burstSlot := none
        following := false } }) s

/-- The LI enters QUIET: the quiet interval runs from the end of the last driven bit time (R7). -/
def quietAtLi (b : Burst) (s : State) : State :=
  onLi (fun l => { l with sensing := .quiet, burst := none, time := max l.time (b.start + b.length + 2),
                          lineDriven := false }) s

/-- The quiet event of a burst, classed as R7 lays down. -/
def burstEnd (b : Burst) (s : State) : State :=
  let answer := windowAnswer s
  let s := quietAtLi b s
  let s := if b.candidate && !b.isPartial then candidateEnd s else s
  burstEndAtAc b (windowAtBurstEnd b answer s)

/-- The quiet event of the burst under way. -/
def quietEvent (s : State) : State :=
  match s.li.burst with
  | some b => burstEnd b s
  | none => s

/-- QUIET_EVENT (R7): the second consecutive undriven bit time. It does not come while the driver is DRIVING, for an
undriven bit time is then an echo mismatch (R11); in STUCK it is the free event's (R15). In OFF the LI reads nothing, so
after a LEAVE taken first the frame end brings no decision and nothing is stored: R133 has it so, and the words of R82 on
the Receive Engine's decision are read of a decision already taken (log 27). -/
def execQuietEvent (after : Nat) (s : State) : Host.Outcome State Fault Refusal :=
  .next (match s.li.sensing with
    | .active => if driving s then s else quietEvent (passTime after s)
    | .off => onLi (fun l => { l with lineDriven := false }) s
    | .quiet => s
    | .stuck => s)

/-! ### The echo check (R11, R12, R31, R41, R42, R57) -/

/-- The request the framer sends, while it is in FRAME. -/
def Framer.request : Framer → Option FrameRequest
  | .frame r => some r
  | .idle => none
  | .answerDue _ _ => none
  | .answer => none

/-- The frame is an ORDER-RESET whose restart indicator is 1. -/
def FrameRequest.restarts (r : FrameRequest) : Bool := r.kind == .orderReset && r.payload.getD 1 0 == 1

/-- Echo pass of an own frame: the framer returns to IDLE, the claim is PASSED, the address-collision count becomes 0, a
restart-bearing ORDER-RESET clears restart pending, the entry's attempts go up by 1, and a unicast frame opens the answer
window (R22, R32, R42, R57, R112). -/
def framePassed (r : FrameRequest) (s : State) : State :=
  let s := setProgress .passed (setFramer .idle s)
  let s := onAc (fun a => { a with collisions := 0, restartPending := a.restartPending && !r.restarts }) s
  let s := match claimContent s with
    | some (.entry tag) => updateEntry tag (fun e => { e with attempts := e.attempts + 1 }) s
    | some .orderReset => s
    | some .wake => s
    | none => s
  if r.kind == .dataDirect || r.kind == .probe then setWindow (.opened r.kind r.destination r.sequence s.li.burst.isNone) s
  else s

/-- Echo pass of a mark: a claim that is MARKED is HELD; the echo of a wake mark has no effect (R41, R47). -/
def markPassed (s : State) : State := if claimProgress s == some .marked then setProgress .held s else s

/-- The transmission has gone out whole: its last bit time is over, and the burst is as long as the transmission (R12). -/
def finishTransmission (t : Transmission) (s : State) : State :=
  let finish := t.start + t.symbols.length
  let s := match s.li.burst with
    | some b => burstTo (finish - b.start) s
    | none => s
  releaseDriver (onLi (fun l => { l with time := max l.time finish }) s)

/-- Echo pass goes to the owner (R12). -/
def echoPass (t : Transmission) (s : State) : State :=
  let s := finishTransmission t s
  match t.owner with
  | .mark => markPassed s
  | .frame =>
    match s.fu.framer.request with
    | some r => framePassed r s
    | none => s
  | .answer => setFramer .idle s

/-- ECHO_PASS (R12): the last symbol of the transmission reads back equal. -/
def execEchoPass (s : State) : Host.Outcome State Fault Refusal :=
  .next (match s.li.tx with
    | some t => echoPass t s
    | none => s)

/-- Partial marking of the burst under way: the own marking goes, the deframer's candidate ends with no report, and it is
no candidate at the AC (R11, R23, R43, R127). -/
def markPartial (s : State) : State :=
  let s := onLi (fun l => { l with burst := l.burst.map fun b => { b with isOwn := false, isPartial := true } }) s
  let s := onAccess (fun a => if a.following then { a with report := .absent, candidateSeen := false, following := false }
    else a) s
  setStaging none (quietDeframer s)

/-- The echo mismatch goes to the owner (R11): a claim mark is withdrawn, a frame is a collision, an answer is lost. -/
def mismatchAtOwner (owner : Owner) (s : State) : State :=
  match owner with
  | .mark => if claimProgress s == some .marked then withdrawClaim s else s
  | .frame => frameMismatch (setFramer .idle s)
  | .answer => setFramer .idle s

/-- The driver is released, the rest of the transmission dropped, the burst marked partial, and the owner told (R11). -/
def echoMismatch (t : Transmission) (s : State) : State := mismatchAtOwner t.owner (markPartial (releaseDriver s))

/-- ECHO_MISMATCH (R11): a bit time reads back differently from the symbol sent. -/
def execEchoMismatch (after : Nat) (s : State) : Host.Outcome State Fault Refusal :=
  .next (match s.li.tx with
    | some t => echoMismatch t (passTime after s)
    | none => s)

/-! ### Stuck and free line (R14, R15, R52, R116) -/

/-- The station state at the stuck event (R52). -/
def stationAtStuck (s : State) : State :=
  match s.ac.station with
  | .online => setStation .resync s
  | .leaving => enterOffline s
  | .resync => s
  | .listening => s
  | .offline => s
  | .halted => s

/-- The own claim whose outcome the TE takes at the stuck event (R116). -/
def outcomeDue (s : State) : Bool :=
  match s.ac.tracker.access.claim with
  | some c => c.progress == .passed && (match c.content with
      | .entry _ => true
      | .orderReset => false
      | .wake => false)
  | none => false

/-- LINE-STUCK is raised and the TE takes a passed claim's outcome. Which of the two reaches the notice queue first is open
(R176; log 8). -/
def stuckNotices (s : State) : State :=
  if outcomeDue s && !Config.lineNoticeFirst s.choice then
    raise .lineStuck none none (takeOutcome (nextChoice s))
  else if outcomeDue s then takeOutcome (raise .lineStuck none none (nextChoice s))
  else takeOutcome (raise .lineStuck none none s)

/-- The stuck declaration (R14, R33, R52, R116): LINE-STUCK, the outcome of a passed claim, the access record emptied, and
the station state answers. -/
def declareStuck (s : State) : State :=
  let s := onLi (fun l => { l with sensing := .stuck }) (passTime (stuckLimit - s.li.stuckTimer) s)
  stationAtStuck (onAccess (fun _ => AccessRecord.empty) (stuckNotices s))

/-- STUCK (R14): the stuck timer reaches 4096. The timer is held while the driver is DRIVING, and the event cannot come
while a claim is MARKED, HELD or SENT (R52). -/
def execStuck (s : State) : Host.Outcome State Fault Refusal :=
  .next (match s.li.sensing with
    | .active => if driving s || claimUnsettled s then s else declareStuck s
    | .off => s
    | .quiet => s
    | .stuck => s)

/-- The free declaration: LINE-FREE, then the quiet event of the burst that held the line (R15). -/
def declareFree (s : State) : State := quietEvent (raise .lineFree none none s)

/-- FREE (R15): the second consecutive undriven bit time in STUCK. -/
def execFree (after : Nat) (s : State) : Host.Outcome State Fault Refusal :=
  .next (match s.li.sensing with
    | .stuck => declareFree (passTime after s)
    | .off => s
    | .quiet => s
    | .active => s)

/-! ### A bit time of a burst that is handed to the FU (R6) -/

/-- An undriven bit time: the first is held; a second one in a row passes on neither, and is the quiet event of R7, or in
STUCK the free event of R15. While the driver is DRIVING it is an echo mismatch (R11), which ECHO_MISMATCH brings. -/
def undrivenReading (s : State) : State :=
  if driving s then s
  else if !undrivenHeld s then setHeld true s
  else match s.li.sensing with
    | .active => quietEvent s
    | .stuck => declareFree s
    | .off => s
    | .quiet => s

/-- READING (R6, R26): the next bit time of the burst handed to the FU. A driven one is passed on and taken, whatever it
brings about (log 2); an undriven one is held until the next has been read (log 14). -/
def execReading (r : Option Reading) (s : State) : Host.Outcome State Fault Refusal :=
  .next (if passesReadings s then
      match r with
      | some r => passReading r s
      | none => undrivenReading s
    else s)

end Sys2Proof.Machine
end

