-- ==== Sys2Proof/Machine/AccessController.lean ====
section
/-! DEFINITION. The Access Controller (chapters 03 to 05): the access end in each station state, slots, rounds, rest, and
the frame request; with the meanings of SLOT_START, FRAME_START, ROUND_END, REST_DETECT_EXPIRY, HOLD_OFF_EXPIRY and
GUARD_COMPLETE. -/

namespace Sys2Proof.Machine

/-! ### What an access end does (R56 to R71) -/

/-- Rotation of an address in the order list (R55). -/
def rotateOrder (a : Nat) (s : State) : State := onOrder (rotate a) s

/-- Reset to ascending followed by a rotation of the sender (R55). -/
def resetOrder (sender : Nat) (s : State) : State := onOrder (fun _ => rotate sender (ascending (roster s))) s

/-- An ONLINE station finds a divergence: ORDER-DIVERGED, and RESYNC with the list kept (R61 to R64, R67). -/
def diverged (subject : Option Nat) (s : State) : State := setStation .resync (raise .orderDiverged subject none s)

/-- A foreign ORDER-RESET is applied (R65). -/
def applyOrderReset (h : FrameHeader) (body : OrderResetBody) (s : State) : State :=
  let s := setStation .online (resetOrder h.source s)
  let s := if body.restart then updatePeer h.source (fun e => { e with lastAccepted := none }) s else s
  raise .orderResetSeen (some h.source) none s

/-- A good foreign ORDER-RESET is applied if the roster sizes agree; otherwise ROSTER-MISMATCH is raised and `other` is
done (R65, R66). -/
def takeOrderReset (h : FrameHeader) (body : OrderResetBody) (other : State → State) (s : State) : State :=
  if body.roster = roster s then applyOrderReset h body s
  else other (raise .rosterMismatch (some h.source) none s)

/-- Verification and rotation of a DATA or PROBE header (R61). -/
def verifyHeader (h : FrameHeader) (s : State) : State :=
  let misaligned := match s.ac.tracker.access.observed with
    | some k => k != h.claimSlot
    | none => false
  if misaligned then diverged (some h.source) s
  else if s.ac.order[h.claimSlot - roster s]? == some h.source then rotateOrder h.source s
  else diverged (some h.source) s

/-- The address that this station's list gives to the observed mark slot, if that is an order slot (R63, R64). -/
def observedOwner (s : State) : Option Nat :=
  match s.ac.tracker.access.observed with
  | some k => if roster s ≤ k then s.ac.order[k - roster s]? else none
  | none => none

/-- Rotation by the mark slot, when the header could not be read (R63). -/
def rotateByMark (s : State) : State :=
  match observedOwner s with
  | some a => rotateOrder a s
  | none => diverged none s

/-- An answer whose frame was missed (R64). -/
def placeAnswer (h : AnswerHeader) (s : State) : State :=
  match observedOwner s with
  | some a => if a = h.destination then rotateOrder a s else diverged (some h.destination) s
  | none => diverged none s

/-- The own frame at an access end in ONLINE (R58). -/
def ownFrameEnd (s : State) : State :=
  match claimContent s with
  | some .orderReset => resetOrder (ownAddress s) s
  | some (.entry _) => rotateOrder (ownAddress s) s
  | some .wake => s
  | none => s

/-- Access end in ONLINE: the first case of R56 that applies. -/
def onlineEnd (s : State) : State :=
  if claimProgress s == some .mismatched then setStation .resync s
  else if sourceIsOwn s then halt s
  else if claimProgress s == some .passed then ownFrameEnd s
  else match s.ac.tracker.access.report with
    | .header (.frame h) e order =>
      if h.kind = .orderReset then
        match e, order with
        | .good, some body => takeOrderReset h body id s
        | _, _ => diverged (some h.source) s
      else verifyHeader h s
    | .header (.answer h) _ _ => placeAnswer h s
    | .headerInvalid => rotateByMark s
    | .truncated => rotateByMark s
    | .absent => s

/-- The own claim is an ORDER-RESET that passed. -/
def ownResetPassed (s : State) : Bool :=
  claimProgress s == some .passed && claimContent s == some .orderReset

/-- Access end in RESYNC (R68). -/
def resyncEnd (s : State) : State :=
  if claimProgress s == some .mismatched then s
  else if sourceIsOwn s then halt s
  else if ownResetPassed s then setStation .online (resetOrder (ownAddress s) s)
  else match s.ac.tracker.access.report with
    | .header (.frame h) .good (some body) => takeOrderReset h body id s
    | _ => s

/-- The first access end of a LISTENING station (R70). -/
def listeningEnd (s : State) : State :=
  if sourceIsOwn s then halt s
  else match s.ac.tracker.access.report with
    | .header (.frame h) .good (some body) => takeOrderReset h body (setStation .resync) s
    | _ => setStation .resync s

/-- The access end that ends LEAVING (R71, R83). -/
def leavingEnd (s : State) : State :=
  if claimProgress s != some .mismatched && sourceIsOwn s then halt s else enterOffline s

/-- The access end at the AC, by station state (R56, R68, R70, R71). -/
def accessEndAtAc (s : State) : State :=
  match s.ac.station with
  | .listening => listeningEnd s
  | .resync => resyncEnd s
  | .online => onlineEnd s
  | .leaving => leavingEnd s
  | .offline => s
  | .halted => s

/-- ROUND(0) starts at a bit time (R37, R46). -/
def nextRound (at_ : Nat) (s : State) : State :=
  onTracker (fun t => { t with phase := .round, roundStart := some at_, guard := none, slotTaken := false }) s

/-- ROUND(0) after an access end: the access record is emptied first (R35, R45). -/
def startRound (at_ : Nat) (s : State) : State := nextRound at_ (onAccess (fun _ => AccessRecord.empty) s)

/-- The access end (R45): the TE takes the outcome of the own claim and the answer window closes, then the order list and
the station state take the access, and a station that still senses starts ROUND(0) at the guard's completion. -/
def accessEnd (completed : Nat) (s : State) : State :=
  let s := accessEndAtAc (takeOutcome s)
  match s.ac.station with
  | .offline => s
  | .halted => s
  | .listening | .resync | .online | .leaving => startRound completed s

/-- The guard is counted in this phase (R36). -/
def guardCounts (t : RoundTracker) : Bool := t.phase == .access || (t.phase == .unaligned && t.activitySeen)

/-- The guard completes: the quiet interval reaches 16 bit times (R36). -/
def completeGuard (count : Nat) (s : State) : State :=
  let s := passTime (guardBits - count) s
  accessEnd (s.li.time - (count - guardBits)) s

/-- GUARD_COMPLETE (R36, R45, R50). It does not come while a transmission is under way or a claim is MARKED, HELD or SENT
(R56). -/
def execGuardComplete (s : State) : Host.Outcome State Fault Refusal :=
  .next (match s.ac.tracker.guard with
    | some count =>
      if s.li.sensing == .quiet && guardCounts s.ac.tracker && !driving s && !claimUnsettled s then completeGuard count s
      else s
    | none => s)

/-! ### The own slot (R37, R39, R109) -/

/-- What the station sends in its own slot (R39): an ORDER-RESET in RESYNC or while restart is pending, otherwise the entry
the TE selects. -/
def slotContent (s : State) : Option ClaimContent :=
  match s.ac.station with
  | .resync => some .orderReset
  | .online =>
    if s.ac.restartPending then some .orderReset else (selectEntry s).map fun e => .entry e.tag
  | .offline | .listening | .leaving | .halted => none

/-- The selected entry becomes IN-FLIGHT; a DATA-DIRECT entry without a sequence takes its destination's next send sequence
(R93, R109). -/
def TxEntry.launch (next : Seq) (e : TxEntry) : TxEntry :=
  { e with state := .inFlight
           sequence := if e.frameKind == .dataDirect && e.sequence.isNone then some next else e.sequence }

/-- The next send sequence of an entry's destination. -/
def nextSequence (s : State) : Destination → Seq
  | .peer a => (peerEntry s a).nextSend
  | .all => 0

/-- The entry of the claim is launched (R109). -/
def launchEntry (content : ClaimContent) (s : State) : State :=
  match content with
  | .entry tag =>
    match findEntry s tag with
    | some e => updateEntry tag (TxEntry.launch (nextSequence s e.destination)) s
    | none => s
  | .orderReset => s
  | .wake => s

/-- The AC requests a claim mark: the own claim is MARKED and the mark goes out at once; a request that is not taken is
withdrawn (R10, R39, R41). -/
def claimSlot (k : Nat) (content : ClaimContent) (s : State) : State :=
  let s := launchEntry content s
  let s := setClaim (some { slot := some k, content := content, progress := .marked, markedAt := s.li.time }) s
  if driving s then withdrawClaim s else startTransmission .mark markSymbols s

/-- The own slot starts (R39). -/
def slotStart (k : Nat) (s : State) : State :=
  let s := onTracker (fun t => { t with slotTaken := true }) (runTo (slotStartTime s k) s)
  match slotContent s with
  | some content => claimSlot k content s
  | none => s

/-- SLOT_START (R39): the start of the station's own slot, once in a round, and not after it has passed. A claim that still
stands WITHDRAWN from an earlier round gives way to the new one (log 26). -/
def execSlotStart (s : State) : Host.Outcome State Fault Refusal :=
  .next (match ownSlot s with
    | some k =>
      if s.ac.tracker.phase == .round && s.li.sensing == .quiet && !s.ac.tracker.slotTaken && !claimOpen s
          && decide (s.li.time ≤ slotStartTime s k) then slotStart k s
      else s
    | none => s)

/-! ### The frame (R22, R42) -/

/-- The body of an own ORDER-RESET: N, and 1 while restart is pending (R18, R42). -/
def orderResetPayload (s : State) : List Byte := [toByte (roster s), flagByte s.ac.restartPending]

/-- The frame request, built from what was fixed at the mark (R42). -/
def frameRequest (c : OwnClaim) (s : State) : Option FrameRequest :=
  match c.content with
  | .orderReset =>
    some { kind := .orderReset, destination := allAddress, claimSlot := c.slot.getD 0, sequence := 0, length := 2,
           payload := orderResetPayload s }
  | .entry tag =>
    (findEntry s tag).map fun e =>
      { kind := e.frameKind, destination := e.destination.address, claimSlot := c.slot.getD 0,
        sequence := if e.frameKind == .dataDirect then e.sequence.getD 0 else 0, length := e.length, payload := e.payload }
  | .wake => none

/-- The AC hands the FU a frame request: the claim is SENT; a request refused by a busy framer or driver is a mismatch
(R10, R22, R42, R111). -/
def sendFrame (r : FrameRequest) (s : State) : State :=
  let s := setProgress .sent s
  if s.fu.framer == .idle && !driving s then
    setFramer (.frame r) (startTransmission .frame (frameSymbols (ownAddress s) r) s)
  else frameMismatch s

/-- The slot boundary after the mark of a HELD claim: S bit times after the mark's first bit time (R42). -/
def frameStart (c : OwnClaim) (s : State) : State :=
  let s := runTo (c.markedAt + s.ac.setup.slot) s
  match frameRequest c s with
  | some r => sendFrame r s
  | none => s

/-- FRAME_START (R42). -/
def execFrameStart (s : State) : Host.Outcome State Fault Refusal :=
  .next (match s.ac.tracker.access.claim with
    | some c => if c.progress == .held then frameStart c s else s
    | none => s)

/-! ### Unclaimed rounds and rest (R46, R47, R51, R99) -/

/-- The bit time at which the current round ends (R37). -/
def roundEndTime (s : State) : Nat := slotStartTime s (2 * roster s)

/-- An unclaimed round ends: the next round starts at once, or at the eighth the phase becomes REST and the need to send is
tested (R46, R47). The access record stays as it is: R35 empties it at an access end, at the stuck event and with the
tracker's initial values, so a claim withdrawn before any active event is an own access until its access end (R81). -/
def endRound (s : State) : State :=
  let due := roundEndTime s
  let s := runTo due s
  if s.ac.tracker.unclaimed + 1 < 8 then
    nextRound due (onTracker (fun t => { t with unclaimed := t.unclaimed + 1 }) s)
  else wakeIfNeeded (onTracker (fun t => { t with phase := .rest, unclaimed := 8 }) s)

/-- ROUND_END (R46): slot 2N−1 ends with no activity. -/
def execRoundEnd (s : State) : Host.Outcome State Fault Refusal :=
  .next (if s.ac.tracker.phase == .round && s.li.sensing == .quiet && !claimOpen s then endRound s else s)

/-- An unaligned station concludes REST: phase REST with the unclaimed count at 8, RESYNC, and the need to send it then has
(R51). -/
def concludeRest (s : State) : State :=
  let s := passTime (restDetectInterval s - s.ac.tracker.restDetect) s
  wakeIfNeeded (setStation .resync (onTracker (fun t => { t with phase := .rest, unclaimed := 8 }) s))

/-- REST_DETECT_EXPIRY (R51). -/
def execRestDetectExpiry (s : State) : Host.Outcome State Fault Refusal :=
  .next (if s.ac.station == .listening && s.ac.tracker.phase == .unaligned && !s.ac.tracker.activitySeen
      && s.li.sensing == .quiet then concludeRest s else s)

/-- A hold-off expires: it becomes absent, and the need to send is tested (R99). -/
def expireHoldOff (a expiry : Nat) (s : State) : State :=
  wakeIfNeeded (updatePeer a (fun e => { e with holdOff := none }) (runTo expiry s))

/-- HOLD_OFF_EXPIRY (R99) of peer `a`; a hold-off expires only while the time base runs (R100). -/
def execHoldOffExpiry (a : Nat) (s : State) : Host.Outcome State Fault Refusal :=
  .next (match (peerEntry s a).holdOff with
    | some (.running expiry) => if s.li.sensing == .off then s else expireHoldOff a expiry s
    | some (.frozen _) => s
    | none => s)

end Sys2Proof.Machine
end

