-- ==== Sys2Proof/Machine/HostPort.lean ====
section
/-! DEFINITION. The Host Port (chapter 10) with what its commands do in the other blocks: the framing of a transaction, the
decision of every command, the step at SEL high, and the resets. -/

namespace Sys2Proof.Machine

/-! ### Bytes of a transaction (R154 to R157) -/

/-- The byte of the outgoing stream that goes out next: 0 after its end (R157). -/
def nextOut (hp : HostPort) : Byte :=
  match hp.stream with
  | some o => o.bytes.getD o.clocked 0
  | none => 0

/-- One more byte of the stream has been clocked out; bytes after its end do not count (R153, R168). -/
def OutStream.advance (o : OutStream) : OutStream :=
  { o with clocked := if o.clocked < o.bytes.length then o.clocked + 1 else o.clocked }

/-- A command byte is received: the summary byte goes out, and a known command becomes the current one (R155, R156). -/
def takeCommand (c : Option Command) (s : State) : State :=
  onHp (fun h => { h with sdo := some (h.summary.getD 0), command := c, parameters := [] }) s

/-- A parameter byte is received: a 0 goes out (R156). -/
def takeParameter (b : Byte) (s : State) : State :=
  onHp (fun h => { h with sdo := some 0, parameters := h.parameters ++ [b] }) s

/-- A byte is received in DECIDED: the next byte of the stream goes out (R157). -/
def clockStream (s : State) : State :=
  onHp (fun h => { h with sdo := some (nextOut h), stream := h.stream.map OutStream.advance }) s

/-- The decision point has been passed with a reply: the transaction is DECIDED and the stream stands (R156). -/
def respond (r : Reply) (data : List Byte) (s : State) : State :=
  onHp (fun h => { h with transaction := .decided, stream := some { reply := r, data := data, clocked := 0 } }) s

/-- The command byte of a command without parameters is the next byte (R156). -/
def awaitsCommand (s : State) : Bool := s.hp.transaction == .command

/-- The last parameter byte of a command is the next byte (R156). -/
def awaitsLast (c : Command) (s : State) : Bool :=
  s.hp.transaction == .parameters && s.hp.command == some c && s.hp.parameters.length + 1 == c.parameterCount

/-! ### STATUS, READ-ORDER, READ-PEER, FETCH (R102, R139, R160, R161) -/

/-- The eight data bytes of STATUS (R160, R183). -/
def statusBytes (s : State) : List Byte :=
  [summaryByte s, toByte s.te.queue.length, toByte s.te.completions.length, toByte s.re.ring.length,
    toByte s.notices.length, toByte s.freeBlocks, optionalByte (ownPosition s), flagByte s.ac.restartPending]

/-- STATUS at its decision point (R160). -/
def decideStatus (s : State) : State := respond .ok (statusBytes s) s

/-- READ-ORDER at its decision point (R161). -/
def decideReadOrder (s : State) : State :=
  if s.ac.order.isEmpty then respond .empty [] s else respond .ok (s.ac.order.map toByte) s

/-- READ-PEER at its decision point (R102). -/
def decideReadPeer (s : State) : State :=
  let a := (parameter s.hp.parameters 0).toNat
  if s.ac.setup.valid && isPeer s a then respond .ok ((peerEntry s a).bytes s.li.time) s
  else respond .badAddress [] s

/-- FETCH at its decision point (R139; log 12). -/
def decideFetch (s : State) : State :=
  match s.re.ring with
  | [] => respond .empty [] s
  | r :: _ => respond .ok r.bytes s

/-! ### SETUP, JOIN, LEAVE, RESTART (R78, R79, R81, R88) -/

/-- SETUP at its decision point (R78). -/
def decideSetup (s : State) : State :=
  let r := setupOf s.hp.parameters
  if s.ac.station != .offline then respond .wrongState [] s
  else if !r.inRange then respond .badSetup [] s
  else respond .ok [] (onAc (fun a => { a with setup := r, order := [] }) s)

/-- Sensing begins (R4): QUIET on an undriven line; on a driven one ACTIVE with a partial burst, and the active event goes to
the AC. The time base starts (R1). -/
def beginSensing (s : State) : State :=
  let s := onLi (fun l => { l with tx := none, burst := none, stuckTimer := 0, time := 0, sensing := .quiet }) s
  if s.li.lineDriven then
    activeAtAc (onLi (fun l => { l with
      sensing := .active
      burst := some { Burst.begin l with start := 0, isOwn := false, isPartial := true } }) s)
  else s

/-- An accepted JOIN (R69, R79, R89): the AC, the Peer Table, the FU and the round tracker take their values, the state
becomes LISTENING, and sensing begins. -/
def joinLine (s : State) : State :=
  let s := onAc (fun a => { a with order := ascending a.setup.roster, restartPending := true, collisions := 0,
                                   tracker := RoundTracker.initial, station := .listening }) s
  let s := onPeers (fun _ => Vector.replicate 32 PeerEntry.initial) s
  let s := onFu (fun _ => FrameUnit.initial) s
  beginSensing (setStaging none s)

/-- JOIN at its decision point (R79). -/
def decideJoin (s : State) : State :=
  if s.ac.station != .offline then respond .wrongState [] s
  else if !s.ac.setup.valid then respond .noSetup [] s
  else respond .ok [] (joinLine s)

/-- What an accepted LEAVE does (R81). -/
def leaveLine (s : State) : State :=
  match s.ac.station with
  | .listening | .resync | .online =>
    if ownAccess s || answering s then setStation .leaving s else enterOffline s
  | .leaving => s
  | .halted => enterOffline s
  | .offline => s

/-- LEAVE at its decision point (R81). Taken before the quiet event of a frame end, it leaves that frame undecided (log 27). -/
def decideLeave (s : State) : State :=
  if s.ac.station == .offline then respond .wrongState [] s else respond .ok [] (leaveLine s)

/-- RESTART at its decision point (R88): the reset itself is taken at SEL high. -/
def decideRestart (s : State) : State := respond .ok [] s

/-! ### SUBMIT (R105, R146, R164) -/

/-- The request that the five parameter bytes make (R105). -/
def requestOf (bytes : List Byte) : OpenSubmit :=
  { kind := messageKindOf (parameter bytes 0), destination := destinationOf (parameter bytes 1),
    tag := wordOfBytes (parameter bytes 2) (parameter bytes 3), length := (parameter bytes 4).toNat, received := [] }

/-- SUBMIT is taken in these states (R75, R105). -/
def StationState.takesSubmit : StationState → Bool
  | .listening | .resync | .online => true
  | .offline | .leaving | .halted => false

/-- The length is out of range for the kind (R105). -/
def OpenSubmit.badLength (o : OpenSubmit) : Bool := decide (240 < o.length) || (o.kind == .probe && o.length != 0)

/-- The destination is not allowed (R105). -/
def badDestination (o : OpenSubmit) (s : State) : Bool :=
  match o.destination with
  | .all => o.kind == .probe
  | .peer a => !isPeer s a

/-- The tag is held by a transmit entry or a completion record (R105). -/
def tagHeld (tag : Tag) (s : State) : Bool :=
  s.te.queue.any (·.tag == tag) || s.te.completions.any (·.tag == tag)

/-- The reserve rule: at least 16 blocks stay free after the grant; a request for none is not made (R145, R146). -/
def reserveGrants (length : Nat) (s : State) : Bool := length == 0 || decide (blocksFor length + 16 ≤ s.freeBlocks)

/-- The reply to a SUBMIT: the first test that applies (R105). -/
def submitReply (o : OpenSubmit) (s : State) : Reply :=
  if !s.ac.station.takesSubmit then .wrongState
  else if o.badLength then .badLength
  else if badDestination o s then .badDest
  else if tagHeld o.tag s then .duplicateTag
  else if 32 ≤ s.te.queue.length + s.te.completions.length then .queueFull
  else if !reserveGrants o.length s then .noSpace
  else .ok

/-- An accepted SUBMIT opens with its reservation (R105, R146). -/
def openRequest (o : OpenSubmit) (s : State) : State :=
  onFree (· - blocksFor o.length) (onHp (fun h => { h with submit := some o }) s)

/-- SUBMIT at its decision point (R105). -/
def decideSubmit (s : State) : State :=
  let o := requestOf s.hp.parameters
  match submitReply o s with
  | .ok => respond .ok [] (openRequest o s)
  | r => respond r [] s

/-- An open SUBMIT still awaits payload bytes (R164). -/
def awaitsPayload (s : State) : Bool :=
  s.hp.transaction == .decided && s.hp.submit.any fun o => decide (o.received.length < o.length)

/-- A payload byte is written into the reserved blocks (R147, R164). -/
def takePayload (b : Byte) (s : State) : State :=
  onHp (fun h => { h with submit := h.submit.map fun o => { o with received := o.received ++ [b] } }) s

/-! ### CANCEL, GATE, RELEASE, MASK (R97, R120, R140, R170) -/

/-- CANCEL at its decision point (R120). -/
def decideCancel (s : State) : State :=
  let tag := wordOfBytes (parameter s.hp.parameters 0) (parameter s.hp.parameters 1)
  match findEntry s tag with
  | none => respond .notFound [] s
  | some e =>
    match e.state with
    | .waiting => respond .ok [] (finishEntry tag .cancelled false s)
    | .inFlight => respond .pending [] (updateEntry tag (fun e => { e with cancelPending := true }) s)

/-- The setting that a GATE byte requests (R97). -/
def gateOf (b : Byte) : Gate := if b = 0 then .opened else .closed

/-- GATE at its decision point (R97). -/
def decideGate (s : State) : State :=
  let a := (parameter s.hp.parameters 0).toNat
  let setting := gateOf (parameter s.hp.parameters 1)
  if s.ac.station == .offline then respond .wrongState [] s
  else if !isPeer s a then respond .badAddress [] s
  else respond .ok [] (updatePeer a (fun e => { e with gate := setting }) s)

/-- RELEASE at its decision point (R140). -/
def decideRelease (s : State) : State :=
  match s.re.ring with
  | [] => respond .empty [] s
  | r :: rest => respond .ok [] (onFree (· + blocksFor r.length) (onRe (fun e => { e with ring := rest }) s))

/-- The mask that three flag bytes request (R170). -/
def maskOf (bytes : List Byte) : AttentionMask :=
  { completions := parameter bytes 0 != 0, receptions := parameter bytes 1 != 0, notices := parameter bytes 2 != 0 }

/-- MASK at its decision point (R170). -/
def decideMask (s : State) : State :=
  respond .ok [] (onHp (fun h => { h with mask := maskOf h.parameters }) s)

/-! ### Take-style reads (R119, R168, R178) -/

/-- TAKE-COMPLETION at its decision point (R119). -/
def decideTakeCompletion (s : State) : State :=
  match s.te.completions with
  | [] => respond .empty [] s
  | c :: _ => respond .ok c.bytes s

/-- TAKE-NOTICE at its decision point (R178). -/
def decideTakeNotice (s : State) : State :=
  match s.notices with
  | [] => respond .empty [] s
  | n :: _ => respond .ok n.bytes s

/-- The owning block decides a command (R156). -/
def decide_ (c : Command) (s : State) : State :=
  match c with
  | .status => decideStatus s
  | .setup => decideSetup s
  | .join => decideJoin s
  | .leave => decideLeave s
  | .restart => decideRestart s
  | .submit => decideSubmit s
  | .cancel => decideCancel s
  | .takeCompletion => decideTakeCompletion s
  | .fetch => decideFetch s
  | .release => decideRelease s
  | .takeNotice => decideTakeNotice s
  | .gate => decideGate s
  | .readPeer => decideReadPeer s
  | .readOrder => decideReadOrder s
  | .mask => decideMask s

/-! ### A received byte (R154, R156, R157, R159, R164) -/

/-- A byte received in COMMAND: an unknown code is answered at once, a command without parameters is decided, any other
enters PARAMETERS (R156). -/
def receiveCommand (b : Byte) (s : State) : State :=
  match commandOf b with
  | none => respond .unknownCommand [] (takeCommand none s)
  | some c =>
    let s := takeCommand (some c) s
    if c.parameterCount = 0 then decide_ c s else onHp (fun h => { h with transaction := .parameters }) s

/-- A byte received in PARAMETERS: the last parameter brings the decision (R156). -/
def receiveParameter (b : Byte) (s : State) : State :=
  let s' := takeParameter b s
  match s.hp.command with
  | some c => if c.parameterCount ≤ s'.hp.parameters.length then decide_ c s' else s'
  | none => s'

/-- A byte received in DECIDED: the stream is clocked, and a payload byte of an open SUBMIT is taken (R157, R164). -/
def receiveDecided (b : Byte) (s : State) : State :=
  if awaitsPayload s then takePayload b (clockStream s) else clockStream s

/-- A received byte (R154). In DROPPED it is ignored and a 0 goes out (R159); while SEL is high nothing is received. -/
def receiveByte (b : Byte) (s : State) : State :=
  match s.hp.transaction with
  | .idle => s
  | .command => receiveCommand b s
  | .parameters => receiveParameter b s
  | .decided => receiveDecided b s
  | .dropped => onHp (fun h => { h with sdo := some 0 }) s

/-- BYTE_RECEIVED (R154): the eighth rising edge of SCK, whatever the byte brings about (log 2). -/
def execByteReceived (b : Byte) (s : State) : Host.Outcome State Fault Refusal := .next (receiveByte b s)

/-! ### The meanings of the commands: the byte that reaches the decision point -/

/-- UNKNOWN_COMMAND (R156). -/
def execUnknownCommand (code : Byte) (s : State) : Host.Outcome State Fault Refusal :=
  .next (if awaitsCommand s && (commandOf code).isNone then respond .unknownCommand [] (takeCommand none s) else s)

/-- STATUS (R160). -/
def execStatus (s : State) : Host.Outcome State Fault Refusal :=
  .next (if awaitsCommand s then decideStatus (takeCommand (some .status) s) else s)

/-- SETUP (R78). -/
def execSetup (b : Byte) (s : State) : Host.Outcome State Fault Refusal :=
  .next (if awaitsLast .setup s then decideSetup (takeParameter b s) else s)

/-- JOIN (R79). -/
def execJoin (s : State) : Host.Outcome State Fault Refusal :=
  .next (if awaitsCommand s then decideJoin (takeCommand (some .join) s) else s)

/-- LEAVE (R81). -/
def execLeave (s : State) : Host.Outcome State Fault Refusal :=
  .next (if awaitsCommand s then decideLeave (takeCommand (some .leave) s) else s)

/-- RESTART (R88). -/
def execRestart (s : State) : Host.Outcome State Fault Refusal :=
  .next (if awaitsCommand s then decideRestart (takeCommand (some .restart) s) else s)

/-- SUBMIT (R105). -/
def execSubmit (b : Byte) (s : State) : Host.Outcome State Fault Refusal :=
  .next (if awaitsLast .submit s then decideSubmit (takeParameter b s) else s)

/-- SUBMIT_PAYLOAD_BYTE (R164). -/
def execSubmitPayloadByte (b : Byte) (s : State) : Host.Outcome State Fault Refusal :=
  .next (if awaitsPayload s then takePayload b (clockStream s) else s)

/-- CANCEL (R120). -/
def execCancel (b : Byte) (s : State) : Host.Outcome State Fault Refusal :=
  .next (if awaitsLast .cancel s then decideCancel (takeParameter b s) else s)

/-- TAKE_COMPLETION (R119). -/
def execTakeCompletion (s : State) : Host.Outcome State Fault Refusal :=
  .next (if awaitsCommand s then decideTakeCompletion (takeCommand (some .takeCompletion) s) else s)

/-- FETCH (R139). -/
def execFetch (s : State) : Host.Outcome State Fault Refusal :=
  .next (if awaitsCommand s then decideFetch (takeCommand (some .fetch) s) else s)

/-- RELEASE (R140). -/
def execRelease (s : State) : Host.Outcome State Fault Refusal :=
  .next (if awaitsCommand s then decideRelease (takeCommand (some .release) s) else s)

/-- TAKE_NOTICE (R178). -/
def execTakeNotice (s : State) : Host.Outcome State Fault Refusal :=
  .next (if awaitsCommand s then decideTakeNotice (takeCommand (some .takeNotice) s) else s)

/-- GATE (R97). -/
def execGate (b : Byte) (s : State) : Host.Outcome State Fault Refusal :=
  .next (if awaitsLast .gate s then decideGate (takeParameter b s) else s)

/-- READ_PEER (R102). -/
def execReadPeer (b : Byte) (s : State) : Host.Outcome State Fault Refusal :=
  .next (if awaitsLast .readPeer s then decideReadPeer (takeParameter b s) else s)

/-- READ_ORDER (R161). -/
def execReadOrder (s : State) : Host.Outcome State Fault Refusal :=
  .next (if awaitsCommand s then decideReadOrder (takeCommand (some .readOrder) s) else s)

/-- MASK (R170). -/
def execMask (b : Byte) (s : State) : Host.Outcome State Fault Refusal :=
  .next (if awaitsLast .mask s then decideMask (takeParameter b s) else s)

/-! ### SEL and the resets (R87, R88, R155, R158, R159) -/

/-- A transaction begins: the summary byte is fixed from the state at this moment (R155); while the station is held in hard
reset the whole transaction is ignored (R159). -/
def beginTransaction (s : State) : State :=
  if s.resetHeld then onHp (fun h => { h with transaction := .dropped }) s
  else onHp (fun h => { h with transaction := .command, summary := some (summaryByte s) }) s

/-- SEL_LOW (R155); while SEL is low already it does not come. -/
def execSelLow (s : State) : Host.Outcome State Fault Refusal :=
  .next (if s.hp.transaction == .idle then beginTransaction s else s)

/-- The entry that an open SUBMIT joins with (R103, R106). -/
def OpenSubmit.entry (o : OpenSubmit) : TxEntry :=
  { tag := o.tag, kind := o.kind, destination := o.destination, length := o.length, payload := o.received,
    sequence := none, attempts := 0, state := .waiting, cancelPending := false, lastAnswer := none }

/-- The open SUBMIT ends at SEL high (R106, R147, R165): with its payload complete the entry joins the tail and the need to
send is tested; otherwise the reservation is returned. -/
def endSubmit (o : OpenSubmit) (s : State) : State :=
  let s := onHp (fun h => { h with submit := none }) s
  if o.received.length = o.length then
    wakeIfNeeded (onTe (fun t => { t with queue := t.queue ++ [o.entry] }) s)
  else onFree (· + blocksFor o.length) s

/-- A take-style read with reply OK whose every byte was clocked out (R168). -/
def takeComplete (hp : HostPort) : Bool := hp.stream.any fun o => o.reply == .ok && o.complete

/-- The end-of-transaction step of the current command (R158). -/
def endStep (s : State) : State :=
  match s.hp.command with
  | some .submit => match s.hp.submit with
    | some o => endSubmit o s
    | none => s
  | some .takeCompletion =>
    if takeComplete s.hp then onTe (fun t => { t with completions := t.completions.drop 1 }) s else s
  | some .takeNotice => if takeComplete s.hp then onNotices (·.drop 1) s else s
  | some .restart => stationReset s
  | _ => s

/-- The transaction is over: IDLE, with no command, parameter, payload or stream, and SDO released (R154, R158). -/
def closeTransaction (s : State) : State := onHp (fun h => HostPort.between h.mask) s

/-- SEL goes high (R158). -/
def endTransaction (s : State) : State :=
  match s.hp.transaction with
  | .idle => s
  | .decided => closeTransaction (endStep s)
  | .command => closeTransaction s
  | .parameters => closeTransaction s
  | .dropped => closeTransaction s

/-- SEL_HIGH (R158). -/
def execSelHigh (s : State) : Host.Outcome State Fault Refusal := .next (endTransaction s)

/-- HARD_RESET (R87): power-up, or RST low. -/
def execHardReset (s : State) : Host.Outcome State Fault Refusal := .next (hardResetState s)

/-- HARD_RESET_END (R87): RST goes high with the supply in its range. -/
def execHardResetEnd (s : State) : Host.Outcome State Fault Refusal := .next { s with resetHeld := false }

end Sys2Proof.Machine
end

