-- ==== Sys2Proof/Machine/Dispatch.lean ====
section
/-! DEFINITION. One arm for each command: its meaning. -/

namespace Sys2Proof.Machine

def exec (i : Instr) (s : State) : Host.Outcome State Fault Refusal :=
  match i with
  | .hardReset => Sys2Proof.Machine.execHardReset s
  | .selLow => Sys2Proof.Machine.execSelLow s
  | .unknownCommand code => Sys2Proof.Machine.execUnknownCommand code s
  | .status => Sys2Proof.Machine.execStatus s
  | .setup holdOffUnits => Sys2Proof.Machine.execSetup holdOffUnits s
  | .join => Sys2Proof.Machine.execJoin s
  | .leave => Sys2Proof.Machine.execLeave s
  | .restart => Sys2Proof.Machine.execRestart s
  | .submit length => Sys2Proof.Machine.execSubmit length s
  | .submitPayloadByte value => Sys2Proof.Machine.execSubmitPayloadByte value s
  | .cancel tagLow => Sys2Proof.Machine.execCancel tagLow s
  | .takeCompletion => Sys2Proof.Machine.execTakeCompletion s
  | .fetch => Sys2Proof.Machine.execFetch s
  | .release => Sys2Proof.Machine.execRelease s
  | .takeNotice => Sys2Proof.Machine.execTakeNotice s
  | .gate setting => Sys2Proof.Machine.execGate setting s
  | .readPeer address => Sys2Proof.Machine.execReadPeer address s
  | .readOrder => Sys2Proof.Machine.execReadOrder s
  | .mask notices => Sys2Proof.Machine.execMask notices s
  | .selHigh => Sys2Proof.Machine.execSelHigh s
  | .activeEvent after => Sys2Proof.Machine.execActiveEvent after s
  | .frameCandidate => Sys2Proof.Machine.execFrameCandidate s
  | .syncFound => Sys2Proof.Machine.execSyncFound s
  | .noSync r => Sys2Proof.Machine.execNoSync r s
  | .headerJudged r => Sys2Proof.Machine.execHeaderJudged r s
  | .bodyCheckTaken r => Sys2Proof.Machine.execBodyCheckTaken r s
  | .overrun r => Sys2Proof.Machine.execOverrun r s
  | .quietEvent after => Sys2Proof.Machine.execQuietEvent after s
  | .answerGapExpiry => Sys2Proof.Machine.execAnswerGapExpiry s
  | .echoPass => Sys2Proof.Machine.execEchoPass s
  | .echoMismatch after => Sys2Proof.Machine.execEchoMismatch after s
  | .slotStart => Sys2Proof.Machine.execSlotStart s
  | .frameStart => Sys2Proof.Machine.execFrameStart s
  | .roundEnd => Sys2Proof.Machine.execRoundEnd s
  | .restDetectExpiry => Sys2Proof.Machine.execRestDetectExpiry s
  | .holdOffExpiry peer => Sys2Proof.Machine.execHoldOffExpiry peer s
  | .guardComplete => Sys2Proof.Machine.execGuardComplete s
  | .stuck => Sys2Proof.Machine.execStuck s
  | .free after => Sys2Proof.Machine.execFree after s
  | .reading r => Sys2Proof.Machine.execReading r s
  | .hardResetEnd => Sys2Proof.Machine.execHardResetEnd s
  | .byteReceived value => Sys2Proof.Machine.execByteReceived value s

end Sys2Proof.Machine
end

