-- ==== Sys2Proof/Safety.lean ====
section
/-! DEFINITION. What counts as a sound station: the laws that the prose of the spec states of every moment, each a
predicate on one state. Certificates state that every step keeps them. -/

namespace Sys2Proof.Machine

/-- A SUBMIT is open only between its decision point and SEL high (R104, R165). -/
abbrev SubmitFramed (s : State) : Prop :=
  s.hp.submit.isSome = true → s.hp.transaction = .decided ∧ s.hp.command = some .submit

/-- The conservation law: free blocks, blocks of transmit entries, of receive records and of the open reservation add up to
192 (R150). -/
abbrev BlocksConserved (s : State) : Prop :=
  s.freeBlocks + queueBlocks s + ringBlocks s + reservedBlocks s = 192

/-- The transmit side holds at most 176 blocks (chapter 09, "What the reserve buys"). -/
abbrev ReserveKept (s : State) : Prop := queueBlocks s + reservedBlocks s ≤ 176

/-- The pool is sound. -/
abbrev PoolSound (s : State) : Prop := SubmitFramed s ∧ BlocksConserved s ∧ ReserveKept s

/-- The collections keep their capacities (R104, R138, R175). -/
abbrev CapacityKept (s : State) : Prop :=
  SubmitFramed s ∧ sharedCount s ≤ 32 ∧ s.re.ring.length ≤ 32 ∧ s.notices.length ≤ 16

/-- The saturating counts keep their ranges (R136, R173). -/
abbrev CountsKept (s : State) : Prop :=
  s.re.missed ≤ 255 ∧ ∀ r ∈ s.notices, r.repeats ≤ 255 ∧ r.lostAfter ≤ 255

/-- No two of the transmit entries, the completion records and the open SUBMIT carry the same tag (R104). -/
def heldTags (s : State) : List Tag :=
  s.te.queue.map (·.tag) ++ s.te.completions.map (·.tag) ++ (s.hp.submit.map (·.tag)).toList

/-- Tags are held once (R104). -/
abbrev TagsDistinct (s : State) : Prop := SubmitFramed s ∧ (heldTags s).Nodup

/-- The order list is empty, or it holds each address from 0 to N−1 exactly once (R54). -/
abbrev OrderFormed (s : State) : Prop := s.ac.order = [] ∨ s.ac.order.Perm (ascending (roster s))

/-- In OFFLINE and HALTED, and in no other state, the LI is OFF (R3, R75). -/
def silentStation : StationState → Bool
  | .offline | .halted => true
  | .listening | .resync | .online | .leaving => false

/-- A station in OFFLINE or HALTED does not sense and does not drive; every other station senses (R75, R76, R86). -/
abbrev SensingMatchesState (s : State) : Prop :=
  (s.li.sensing = .off ↔ silentStation s.ac.station = true) ∧ (s.li.sensing = .off → driving s = false)

/-- A hold-off has an expiry time only while the time base runs (R100). -/
def HoldOffsStopped (s : State) : Prop :=
  s.li.sensing = .off → ∀ a expiry, (peerEntry s a).holdOff ≠ some (.running expiry)

/-- The entries that are IN-FLIGHT. -/
def inFlightEntries (s : State) : List TxEntry := s.te.queue.filter fun e => e.state == .inFlight

/-- An entry is IN-FLIGHT only while it is the content of an own claim that holds the access (R109). -/
abbrev InFlightClaimed (s : State) : Prop :=
  ∀ e ∈ s.te.queue, e.state = .inFlight → claimOpen s = true ∧ claimContent s = some (.entry e.tag)

/-- While the station is in hard reset it takes no transaction (R87, R159). -/
abbrev ResetHolds (s : State) : Prop :=
  s.resetHeld = true → s.ac.station = .offline ∧ (s.hp.transaction = .idle ∨ s.hp.transaction = .dropped)

/-- The stuck timer and the counts of the AC stay in their ranges (R14, R34, R73). -/
abbrev TimersKept (s : State) : Prop :=
  s.li.stuckTimer ≤ stuckLimit ∧ s.ac.tracker.unclaimed ≤ 8 ∧ s.ac.collisions ≤ 4

/-- A station that does not sense holds the first values of the LI, the FU and the round tracker, and no staging buffer
(R3, R34, R76, R126). -/
abbrev OffIsInitial (s : State) : Prop :=
  s.li.sensing = .off → s.li.tx = none ∧ s.li.burst = none ∧ s.li.stuckTimer = 0 ∧ s.fu = FrameUnit.initial
    ∧ s.ac.tracker = RoundTracker.initial ∧ s.re.staging = none

/-- The silent states and the first values go together (R75, R76, R86). -/
abbrev SilenceSound (s : State) : Prop := SensingMatchesState s ∧ OffIsInitial s

/-- In OFFLINE the transmit queue is empty, and no SUBMIT is open in OFFLINE or LEAVING (R76, R84, R123). -/
abbrev OfflineQueueEmpty (s : State) : Prop :=
  SubmitFramed s ∧ (s.ac.station = .offline → s.te.queue = [])
    ∧ (s.ac.station = .offline ∨ s.ac.station = .leaving → s.hp.submit = none)

/-- The counts of the Peer Table: at most 3, and a peer whose count stands at 3 is SILENT (R89, R91). -/
abbrev PeersSound (s : State) : Prop :=
  ∀ e ∈ s.peers.toList, e.unanswered ≤ 3 ∧ (e.unanswered = 3 → e.presence = .silent)

/-- The deframer is out of QUIET only while a burst is under way that is a frame candidate and not marked partial (R23). -/
abbrev DeframerFollowsCandidate (s : State) : Prop :=
  s.fu.deframer.phase ≠ .quiet → (s.li.sensing = .active ∨ s.li.sensing = .stuck) ∧
    s.li.burst.any (fun b => b.candidate && !b.isPartial) = true

/-! ### What statements say of a next state -/

/-- The Host Port after the command byte of a command has brought its decision (R156). -/
def HostPort.answered (h : HostPort) (c : Option Command) (r : Reply) (data : List Byte) : HostPort :=
  { h with transaction := .decided, command := c, parameters := [], sdo := some (h.summary.getD 0),
           stream := some { reply := r, data := data, clocked := 0 } }

/-- The Host Port after the last parameter byte of a command has brought its decision (R156). -/
def HostPort.answeredAfter (h : HostPort) (b : Byte) (r : Reply) (data : List Byte) : HostPort :=
  { h with transaction := .decided, parameters := h.parameters ++ [b], sdo := some 0,
           stream := some { reply := r, data := data, clocked := 0 } }

/-- The host's side and what outlasts the line: unchanged by every event of the line. -/
def HostSideKept (s t : State) : Prop :=
  t.hp = s.hp ∧ t.resetHeld = s.resetHeld ∧ t.pending = s.pending

/-- The message machinery is unchanged: queues, ring, pool, Peer Table, notices and free values, and the host's side. -/
def MessagesKept (s t : State) : Prop :=
  t.te = s.te ∧ t.re = s.re ∧ t.freeBlocks = s.freeBlocks ∧ t.peers = s.peers ∧ t.notices = s.notices
    ∧ t.choice = s.choice ∧ HostSideKept s t

/-- The AC is unchanged outside its round tracker. -/
def OrderKept (s t : State) : Prop := t.ac = { s.ac with tracker := t.ac.tracker }

/-- An entry has finished (R117): it has left the queue, its blocks are free, and its record stands at the newest end. -/
def Finished (e : TxEntry) (outcome : MessageOutcome) (note : Bool) (answer : Option AnswerCode) (s t : State) : Prop :=
  t.te.queue = s.te.queue.eraseP (·.tag == e.tag) ∧ t.freeBlocks = s.freeBlocks + (e.length + 31) / 32
    ∧ t.te.completions = s.te.completions ++
      [{ tag := e.tag, destination := e.destination, outcome := outcome, attempts := e.attempts, sequence := e.sequence,
         duplicateNote := note, lastAnswer := answer }]

/-- An entry is back to WAITING with nothing else of it changed but its last answer code (R115). -/
def BackToWaiting (e : TxEntry) (answer : Option AnswerCode) (s t : State) : Prop :=
  t.te.queue = s.te.queue.map (fun x => if x.tag == e.tag then { x with state := .waiting, lastAnswer := answer } else x)
    ∧ t.te.completions = s.te.completions ∧ t.freeBlocks = s.freeBlocks

/-- The guard is being counted and stands at `n` (R36), and nothing that comes before the access end is still to come. -/
abbrev GuardDue (n : Nat) (s : State) : Prop :=
  s.ac.tracker.guard = some n ∧ n ≤ 16 ∧ s.li.sensing = .quiet ∧ guardCounts s.ac.tracker = true ∧ s.li.tx = none
    ∧ claimUnsettled s = false

/-- The burst under way is handed to the FU, and no undriven bit time of it is held (R6). -/
abbrev HandedBurst (s : State) (b : Burst) : Prop :=
  s.li.burst = some b ∧ b.candidate = true ∧ b.isPartial = false ∧ b.held = false

/-- The record of an entry that a flush finishes (R118, R123). -/
def TxEntry.withdrawn (e : TxEntry) : Completion :=
  { tag := e.tag, destination := e.destination, outcome := .withdrawn, attempts := e.attempts, sequence := e.sequence,
    duplicateNote := false, lastAnswer := e.lastAnswer }

/-- The burst under way after an echo mismatch (R11, R23, R43): the driver is RELEASED with the stuck timer at 0, and the
burst is marked partial, no longer own. The candidate it fed is over: the deframer is in QUIET, with all its first values
(log 13), the staging buffer is empty, and a frame report that followed it is absent again. Of the access record nothing
else changes but the claim, which is the owner's matter. -/
def BurstMarkedPartial (s t : State) : Prop :=
  t.li = { s.li with
    tx := none
    stuckTimer := 0
    burst := s.li.burst.map fun b => { b with isOwn := false, isPartial := true } } ∧
  t.fu.deframer = State.reset.fu.deframer ∧ t.fu.window = s.fu.window ∧ t.re = { s.re with staging := none } ∧
  t.ac.tracker = { s.ac.tracker with access := { s.ac.tracker.access with
    claim := t.ac.tracker.access.claim
    report := if s.ac.tracker.access.following then .absent else s.ac.tracker.access.report
    candidateSeen := s.ac.tracker.access.candidateSeen && !s.ac.tracker.access.following
    following := false } }

/-- An own frame has collided (R59, R73, R110, R111): the claim is MISMATCHED and COLLISION is raised; a claim for an
ORDER-RESET of the address slot counts, and the fourth takes the station to HALTED, with ADDRESS-CONFLICT after COLLISION;
an entry returns to WAITING, or finishes CANCELLED if a cancel is pending, with no attempt counted. -/
def Collided (c : OwnClaim) (s t : State) : Prop :=
  let addressSlot := c.content = .orderReset ∧ ∃ k, c.slot = some k ∧ k < s.ac.setup.roster
  let collision : Notice := { kind := .collision, subject := none, detail := none }
  let conflict : Notice := { kind := .addressConflict, subject := some s.ac.setup.address, detail := none }
  (¬addressSlot → t.ac.collisions = s.ac.collisions ∧ t.ac.station = s.ac.station ∧
    t.ac.tracker.access.claim = some { c with progress := .mismatched } ∧
    t.notices = addNotice (underRead s) collision s.notices) ∧
  (addressSlot → s.ac.collisions < 3 → t.ac.collisions = s.ac.collisions + 1 ∧ t.ac.station = s.ac.station ∧
    t.ac.tracker.access.claim = some { c with progress := .mismatched } ∧
    t.notices = addNotice (underRead s) collision s.notices) ∧
  (addressSlot → s.ac.collisions = 3 → t.ac.collisions = 4 ∧ t.ac.station = .halted ∧ t.li.sensing = .off ∧
    t.li.tx = none ∧ t.ac.tracker = State.reset.ac.tracker ∧
    t.notices = addNotice (underRead s) conflict (addNotice (underRead s) collision s.notices)) ∧
  ((∀ tag, c.content ≠ .entry tag) → t.te = s.te ∧ t.freeBlocks = s.freeBlocks) ∧
  (∀ tag e, c.content = .entry tag → findEntry s tag = some e →
    (e.cancelPending = false → t.te = { s.te with queue := s.te.queue.map fun y =>
        if y.tag = tag then { y with state := .waiting } else y } ∧ t.freeBlocks = s.freeBlocks) ∧
    (e.cancelPending = true → Finished e .cancelled false e.lastAnswer s t))

/-- The burst under way may end: the LI is ACTIVE, with its stuck timer in its range, and the driver RELEASED (R7, R11,
R14). -/
abbrev BurstMayEnd (s : State) (b : Burst) : Prop :=
  s.li.sensing = .active ∧ s.li.tx = none ∧ s.li.burst = some b ∧ s.li.stuckTimer ≤ stuckLimit

end Sys2Proof.Machine
end

