-- ==== Sys2Proof/Certificates/Slice0/Obligations.lean ====
section
/-! DEFINITION. The statements for the provers, family by family of the table of operations and events. -/

open Sys2Proof Sys2Proof.Machine

/-! ### The step and the queue of commands -/

/-- A step takes the command at the front of the queue and runs it on the state with the rest of the queue. Model
choices: log 15. -/
def Obligations.StepRunsFrontCommand : Prop :=
  ∀ (c : Instr) (rest : List Instr) (s : State), s.pending = c :: rest → step s = exec c { s with pending := rest }

/-- On an empty queue one bit time passes (log 4): the time base stands in OFF; in QUIET it runs with the guard
count and the rest-detect timer; in ACTIVE the burst and the stuck timer go on, the timer held at 0 while the driver
is DRIVING; in STUCK the timer has stopped. The operand `after` of an event is that many bit times before it (log
6): each is the bit time that passes on an empty queue. Model choices: logs 4, 6. -/
def Obligations.BitTimesPassAloneAndBeforeEvents : Prop :=
  (∀ s : State, s.pending = [] →
      (s.li.sensing = .off → step s = .next s) ∧
      (s.li.sensing = .quiet → step s = .next { s with
        li := { s.li with time := s.li.time + 1 }
        ac := { s.ac with tracker := { s.ac.tracker with
          guard := s.ac.tracker.guard.map (· + 1)
          restDetect := if s.ac.tracker.phase = .unaligned ∧ s.ac.tracker.activitySeen = false
            then s.ac.tracker.restDetect + 1 else s.ac.tracker.restDetect } } }) ∧
      (s.li.sensing = .active → step s = .next { s with
        li := { s.li with
          time := s.li.time + 1
          burst := s.li.burst.map fun b => { b with length := b.length + 1 }
          stuckTimer := if s.li.tx = none then min 4096 (s.li.stuckTimer + 1) else 0 } }) ∧
      (s.li.sensing = .stuck → step s = .next { s with
        li := { s.li with time := s.li.time + 1, burst := s.li.burst.map fun b => { b with length := b.length + 1 } } })) ∧
  (∀ (n : Nat) (s : State),
      (s.pending = [] → step s = .next (passTime 1 s)) ∧
      (s.li.sensing = .quiet → exec (.activeEvent (n + 1)) s = exec (.activeEvent n) (passTime 1 s)) ∧
      (s.li.sensing = .active → s.li.tx = none → exec (.quietEvent (n + 1)) s = exec (.quietEvent n) (passTime 1 s)) ∧
      (s.li.sensing = .stuck → exec (.free (n + 1)) s = exec (.free n) (passTime 1 s)) ∧
      (s.li.tx ≠ none → exec (.echoMismatch (n + 1)) s = exec (.echoMismatch n) (passTime 1 s)))

/-- Every command answers a next state in every state, and leaves the queue of commands alone. A command that is not
well formed names no event, and changes nothing (log 3). Model choices: log 3. -/
def Obligations.EveryCommandAnswersNextState : Prop :=
  (∀ (c : Instr) (s : State), ∃ t, exec c s = .next t ∧ t.pending = s.pending) ∧
  (∀ (c : Instr) (s : State), c.wellFormed = false → exec c s = .next s)

/-! ### Resets -/

/-- The values the spec states for the end of a hard reset. -/
def Obligations.ResetValuesAreTheStatedOnes : Prop :=
  State.reset.li.sensing = .off ∧ State.reset.li.tx = none ∧ State.reset.li.burst = none
    ∧ State.reset.li.stuckTimer = 0 ∧ State.reset.fu.deframer.phase = .quiet
    ∧ State.reset.fu.deframer.headerBytes = [] ∧ State.reset.fu.deframer.bodyFailed = false
    ∧ State.reset.fu.framer = .idle ∧ State.reset.fu.window = .closed
    ∧ State.reset.ac.station = .offline ∧ State.reset.ac.order = [] ∧ State.reset.ac.restartPending = false
    ∧ State.reset.ac.collisions = 0
    ∧ State.reset.ac.setup = { address := 0, roster := 0, rate := 0, slot := 0, retry := 0, holdOff := 0, valid := false }
    ∧ State.reset.ac.tracker.phase = .unaligned ∧ State.reset.ac.tracker.roundStart = none
    ∧ State.reset.ac.tracker.unclaimed = 0 ∧ State.reset.ac.tracker.activitySeen = false
    ∧ State.reset.ac.tracker.restDetect = 0 ∧ State.reset.ac.tracker.access = AccessRecord.empty
    ∧ (∀ a, peerEntry State.reset a = { presence := .unknown, unanswered := 0, nextSend := 0, lastAccepted := none,
                                        gate := .opened, holdOff := none })
    ∧ State.reset.te = { queue := [], completions := [] }
    ∧ State.reset.re = { ring := [], missed := 0, staging := none }
    ∧ State.reset.freeBlocks = 192 ∧ State.reset.notices = []
    ∧ State.reset.hp.transaction = .idle ∧ State.reset.hp.command = none ∧ State.reset.hp.parameters = []
    ∧ State.reset.hp.stream = none ∧ State.reset.hp.submit = none
    ∧ State.reset.hp.mask = { completions := true, receptions := true, notices := true }
    ∧ attention State.reset = false

/-- A hard reset gives every block its reset value, holds the station, and drops a transaction in progress: it is
then ignored to SEL high. The line's level, the waiting commands and the count of free values are not the station's.
Ending the reset only lets the station go. Model choices: logs 9, 19. -/
def Obligations.HardResetGivesInitialValuesAndHolds : Prop :=
  ∀ s : State,
    exec .hardReset s = .next { State.reset with
      li := { State.reset.li with lineDriven := s.li.lineDriven }
      hp := { State.reset.hp with transaction := if s.hp.transaction = .idle then .idle else .dropped }
      resetHeld := true
      choice := s.choice
      pending := s.pending } ∧
    exec .hardResetEnd s = .next { s with resetHeld := false }

/-- RESTART replies OK and changes nothing else; at SEL high every block takes its reset value, but the setup record
and the attention mask are kept. What is not the station's outlasts the reset: the waiting commands, the count of free
values, the hold of a hard reset, and the level of the line as last told (log 9). Model choices: logs 1, 9. -/
def Obligations.RestartResetsAtSelHigh : Prop :=
  ∀ s : State,
    (s.hp.transaction = .command →
      exec .restart s = .next { s with hp := s.hp.answered (some .restart) .ok [] }) ∧
    (s.hp.transaction = .decided → s.hp.command = some .restart →
      exec .selHigh s = .next { State.reset with
        li := { State.reset.li with lineDriven := s.li.lineDriven }
        ac := { State.reset.ac with setup := s.ac.setup }
        hp := { State.reset.hp with mask := s.hp.mask }
        resetHeld := s.resetHeld
        choice := s.choice
        pending := s.pending })

/-! ### The host port: transactions and bytes -/

/-- SEL low opens a transaction with the summary byte fixed from the state at that moment: the state code in bits 7
to 5, then completion pending, receive pending, notice pending, line stuck and attention. While a hard reset is held
the transaction is ignored as a whole. -/
def Obligations.SelLowFixesSummaryByte : Prop :=
  ∀ s : State, s.hp.transaction = .idle →
    (s.resetHeld = true → exec .selLow s = .next { s with hp := { s.hp with transaction := .dropped } }) ∧
    (s.resetHeld = false → ∃ b : Byte,
      exec .selLow s = .next { s with hp := { s.hp with transaction := .command, summary := some b } } ∧
      b.toNat =
        32 * (match s.ac.station with
          | .offline => 0 | .listening => 1 | .resync => 2 | .online => 3 | .leaving => 4 | .halted => 5)
        + (if s.te.completions = [] then 0 else 16) + (if s.re.ring = [] then 0 else 8)
        + (if s.notices = [] then 0 else 4) + (if s.li.sensing = .stuck then 2 else 0)
        + (if (s.hp.mask.completions = true ∧ s.te.completions ≠ []) ∨ (s.hp.mask.receptions = true ∧ s.re.ring ≠ [])
            ∨ (s.hp.mask.notices = true ∧ s.notices ≠ []) then 1 else 0))

/-- Byte 1 in is the command byte: each code brings the decision of its command or opens its parameters, with the
summary byte going out; any other code is answered UNKNOWN-COMMAND. Model choices: logs 1, 2. -/
def Obligations.CommandByteSelectsCommand : Prop :=
  ∀ s : State, s.hp.transaction = .command →
    exec (.byteReceived 0x01) s = exec .status s ∧ exec (.byteReceived 0x03) s = exec .join s ∧
    exec (.byteReceived 0x04) s = exec .leave s ∧ exec (.byteReceived 0x05) s = exec .restart s ∧
    exec (.byteReceived 0x12) s = exec .takeCompletion s ∧ exec (.byteReceived 0x20) s = exec .fetch s ∧
    exec (.byteReceived 0x21) s = exec .release s ∧ exec (.byteReceived 0x30) s = exec .takeNotice s ∧
    exec (.byteReceived 0x42) s = exec .readOrder s ∧
    (∀ p ∈ [((0x02 : Byte), Command.setup), (0x10, .submit), (0x11, .cancel), (0x40, .gate), (0x41, .readPeer),
        (0x50, .mask)],
      exec (.byteReceived p.1) s = .next { s with hp := { s.hp with
        transaction := .parameters, command := some p.2, parameters := [], sdo := some (s.hp.summary.getD 0) } }) ∧
    (∀ b : Byte, b ∉ [(0x01 : Byte), 0x02, 0x03, 0x04, 0x05, 0x10, 0x11, 0x12, 0x20, 0x21, 0x30, 0x40, 0x41, 0x42, 0x50] →
      exec (.byteReceived b) s = exec (.unknownCommand b) s ∧
      exec (.unknownCommand b) s = .next { s with hp := s.hp.answered none .unknownCommand [] })

/-- Each further byte is the next parameter, with a 0 going out, and the last one brings the decision: SETUP's
sixth, SUBMIT's fifth, MASK's third, CANCEL's and GATE's second, READ-PEER's first. Model choices: logs 1, 2. -/
def Obligations.LastParameterBringsDecision : Prop :=
  ∀ (b : Byte) (s : State), s.hp.transaction = .parameters →
    (s.hp.command = some .setup → s.hp.parameters.length = 5 → exec (.byteReceived b) s = exec (.setup b) s) ∧
    (s.hp.command = some .submit → s.hp.parameters.length = 4 → exec (.byteReceived b) s = exec (.submit b) s) ∧
    (s.hp.command = some .mask → s.hp.parameters.length = 2 → exec (.byteReceived b) s = exec (.mask b) s) ∧
    (s.hp.command = some .cancel → s.hp.parameters.length = 1 → exec (.byteReceived b) s = exec (.cancel b) s) ∧
    (s.hp.command = some .gate → s.hp.parameters.length = 1 → exec (.byteReceived b) s = exec (.gate b) s) ∧
    (s.hp.command = some .readPeer → s.hp.parameters.length = 0 → exec (.byteReceived b) s = exec (.readPeer b) s) ∧
    (∀ p ∈ [(Command.setup, 6), (.submit, 5), (.mask, 3), (.cancel, 2), (.gate, 2), (.readPeer, 1)],
      s.hp.command = some p.1 → s.hp.parameters.length + 1 < p.2 →
      exec (.byteReceived b) s =
        .next { s with hp := { s.hp with parameters := s.hp.parameters ++ [b], sdo := some 0 } })

/-- After the decision point the stream goes out byte by byte and then 0; a payload byte of an open SUBMIT is taken
beside it, any other byte is ignored. In DROPPED a 0 goes out, and with SEL high nothing is received. Model choices:
log 2. -/
def Obligations.BytesAfterDecisionClockStream : Prop :=
  ∀ (b : Byte) (s : State),
    (s.hp.transaction = .decided → ∀ o, s.hp.stream = some o →
      (∀ q, s.hp.submit = some q → q.received.length < q.length →
        exec (.byteReceived b) s = exec (.submitPayloadByte b) s ∧
        exec (.submitPayloadByte b) s = .next { s with hp := { s.hp with
          sdo := some ((o.reply.code :: o.data).getD o.clocked 0)
          stream := some { o with clocked := if o.clocked ≤ o.data.length then o.clocked + 1 else o.clocked }
          submit := some { q with received := q.received ++ [b] } } }) ∧
      ((∀ q, s.hp.submit = some q → q.length ≤ q.received.length) →
        exec (.byteReceived b) s = .next { s with hp := { s.hp with
          sdo := some ((o.reply.code :: o.data).getD o.clocked 0)
          stream := some { o with clocked := if o.clocked ≤ o.data.length then o.clocked + 1 else o.clocked } } })) ∧
    (s.hp.transaction = .dropped → exec (.byteReceived b) s = .next { s with hp := { s.hp with sdo := some 0 } }) ∧
    (s.hp.transaction = .idle → exec (.byteReceived b) s = .next s)

/-- SEL high before a decision point abandons the command: nothing changes but the port, which is IDLE again. A
decided command without an end-of-transaction step, or whose reply was not OK, does no more. At SEL high a
take-style read whose reply was OK and whose every byte was clocked out removes the oldest record of its queue; one
that did not end complete removes nothing. -/
def Obligations.TransactionEndsAtSelHigh : Prop :=
  (∀ s : State,
      (s.hp.transaction = .idle → exec .selHigh s = .next s) ∧
      (s.hp.transaction = .command ∨ s.hp.transaction = .parameters ∨ s.hp.transaction = .dropped →
        exec .selHigh s = .next { s with hp := { State.reset.hp with mask := s.hp.mask } }) ∧
      (s.hp.transaction = .decided →
        s.hp.command ∈ [none, some .status, some .setup, some .join, some .leave, some .cancel, some .fetch,
          some .release, some .gate, some .readPeer, some .readOrder, some .mask] ∨
        (s.hp.command = some .submit ∧ s.hp.submit = none) ∨
        ((s.hp.command = some .takeCompletion ∨ s.hp.command = some .takeNotice) ∧
          ∀ o, s.hp.stream = some o → o.reply ≠ .ok) →
        exec .selHigh s = .next { s with hp := { State.reset.hp with mask := s.hp.mask } })) ∧
  (∀ (s : State) (o : OutStream), s.hp.transaction = .decided → s.hp.stream = some o → o.reply = .ok →
      (s.hp.command = some .takeCompletion → exec .selHigh s = .next { s with
        te := { s.te with completions := if o.data.length + 1 ≤ o.clocked then s.te.completions.drop 1
                                         else s.te.completions }
        hp := { State.reset.hp with mask := s.hp.mask } }) ∧
      (s.hp.command = some .takeNotice → exec .selHigh s = .next { s with
        notices := if o.data.length + 1 ≤ o.clocked then s.notices.drop 1 else s.notices
        hp := { State.reset.hp with mask := s.hp.mask } }))

/-! ### Host commands that read -/

/-- STATUS returns its eight bytes after OK, in every state, and changes no state. Model choices: log 1. -/
def Obligations.StatusReturnsCounts : Prop :=
  ∀ s : State, s.hp.transaction = .command →
    exec .status s = .next { s with
        hp := s.hp.answered (some .status) .ok
          [summaryByte s, toByte s.te.queue.length, toByte s.te.completions.length, toByte s.re.ring.length,
           toByte s.notices.length, toByte s.freeBlocks,
           (match s.ac.order.idxOf? s.ac.setup.address with | some p => toByte p | none => 0xFF),
           if s.ac.restartPending then 1 else 0] }

/-- READ-ORDER (R161): EMPTY on an empty list, otherwise OK and the N addresses from the front. It is taken in every
state and changes no state; the list is empty after either reset and after an accepted SETUP; an access end leaves
the reply as it is. -/
def Obligations.ReadOrderReturnsList : Prop :=
  (∀ s : State, s.hp.transaction = .command →
    exec (.byteReceived 0x42) s = exec .readOrder s ∧
    (s.ac.order = [] → exec .readOrder s = .next { s with hp := s.hp.answered (some .readOrder) .empty [] }) ∧
    (s.ac.order ≠ [] →
      exec .readOrder s = .next { s with hp := s.hp.answered (some .readOrder) .ok (s.ac.order.map toByte) } ∧
      (OrderFormed s → (s.ac.order.map toByte).length = s.ac.setup.roster))) ∧
  (∀ s t : State, exec .hardReset s = .next t → t.ac.order = []) ∧
  (∀ s t : State, s.hp.transaction = .decided → s.hp.command = some .restart → exec .selHigh s = .next t →
    t.ac.order = []) ∧
  (∀ (b : Byte) (s t : State), s.hp.transaction = .parameters → s.hp.command = some .setup →
    s.hp.parameters.length = 5 → exec (.setup b) s = .next t →
    t.hp.stream = some { reply := .ok, data := [], clocked := 0 } → t.ac.order = []) ∧
  State.reset.ac.order = [] ∧
  (∀ s t : State, exec .guardComplete s = .next t → t.hp = s.hp)

/-- READ-PEER returns a copy of the entry of a peer after OK, BAD-ADDRESS otherwise, and changes no state. Model
choices: log 1. -/
def Obligations.ReadPeerReturnsEntry : Prop :=
  ∀ (b : Byte) (s : State), s.hp.transaction = .parameters → s.hp.command = some .readPeer → s.hp.parameters = [] →
    (s.ac.setup.valid = true ∧ b.toNat < s.ac.setup.roster ∧ b.toNat ≠ s.ac.setup.address →
      exec (.readPeer b) s = .next { s with
        hp := s.hp.answeredAfter b .ok
            (let e := peerEntry s b.toNat
             [(match e.presence with | .unknown => 0 | .present => 1 | .silent => 2), toByte e.unanswered,
              e.nextSend.setWidth 8, (match e.lastAccepted with | some q => q.setWidth 8 | none => 0xFF),
              (match e.gate with | .opened => 0 | .closed => 1), (if e.holdOff = none then 0 else 1),
              toByte (match e.holdOff with
                | none => 0
                | some (.running expiry) => (expiry - s.li.time + 255) / 256
                | some (.frozen remaining) => (remaining + 255) / 256)]) }) ∧
    (¬(s.ac.setup.valid = true ∧ b.toNat < s.ac.setup.roster ∧ b.toNat ≠ s.ac.setup.address) →
      exec (.readPeer b) s = .next { s with hp := s.hp.answeredAfter b .badAddress [] })

/-- FETCH returns the oldest record, its five header bytes and its payload, after OK, or EMPTY; it removes nothing.
TAKE-COMPLETION and TAKE-NOTICE copy the oldest record of their queue after OK, or reply EMPTY, and remove nothing
at the decision point. Model choices: logs 1, 12. -/
def Obligations.ReadsCopyOldestRecord : Prop :=
  (∀ s : State, s.hp.transaction = .command →
      (s.re.ring = [] → exec .fetch s = .next { s with hp := s.hp.answered (some .fetch) .empty [] }) ∧
      (∀ r rest, s.re.ring = r :: rest →
        exec .fetch s = .next { s with
          hp := s.hp.answered (some .fetch) .ok
              ([toByte r.source, (match r.kind with | .direct => 0 | .all => 1),
                (match r.sequence with | some q => q.setWidth 8 | none => 0xFF), toByte r.length, toByte r.missed]
                ++ r.payload) })) ∧
  (∀ s : State, s.hp.transaction = .command →
      (s.te.completions = [] →
        exec .takeCompletion s = .next { s with hp := s.hp.answered (some .takeCompletion) .empty [] }) ∧
      (∀ c rest, s.te.completions = c :: rest →
        exec .takeCompletion s = .next { s with
          hp := s.hp.answered (some .takeCompletion) .ok
              [highByte c.tag, lowByte c.tag, toByte c.destination.address, c.outcome.code, toByte c.attempts,
               (match c.sequence with | some q => q.setWidth 8 | none => 0xFF), (if c.duplicateNote then 1 else 0),
               (match c.lastAnswer with | some a => a.code | none => 0)] }) ∧
      (s.notices = [] → exec .takeNotice s = .next { s with hp := s.hp.answered (some .takeNotice) .empty [] }) ∧
      (∀ n rest, s.notices = n :: rest →
        exec .takeNotice s = .next { s with
          hp := s.hp.answered (some .takeNotice) .ok
              [n.notice.kind.code, (match n.notice.subject with | some a => toByte a | none => 0xFF),
               (match n.notice.detail with | some d => d.code | none => 0), toByte n.repeats, toByte n.lostAfter] }))

/-! ### Host commands that act -/

/-- SETUP (R78): WRONG-STATE outside OFFLINE; BAD-SETUP when a field is out of range; otherwise the six fields are
stored, the record is valid, the order list is empty, and nothing else changes. A SETUP abandoned before its sixth
byte has no effect. -/
def Obligations.SetupStoresRecord : Prop :=
  (∀ (a n r sl l h : Byte) (s : State), s.hp.transaction = .parameters → s.hp.command = some .setup →
    s.hp.parameters = [a, n, r, sl, l] →
    exec (.byteReceived h) s = exec (.setup h) s ∧
    (s.ac.station ≠ .offline →
      exec (.setup h) s = .next { s with hp := s.hp.answeredAfter h .wrongState [] }) ∧
    (s.ac.station = .offline →
      ¬(2 ≤ n.toNat ∧ n.toNat ≤ 32 ∧ a.toNat < n.toNat ∧ r.toNat ≤ 5 ∧ 6 ≤ sl.toNat ∧ sl.toNat ≤ 16
        ∧ 1 ≤ l.toNat ∧ l.toNat ≤ 15 ∧ 1 ≤ h.toNat) →
      exec (.setup h) s = .next { s with hp := s.hp.answeredAfter h .badSetup [] }) ∧
    (s.ac.station = .offline →
      (2 ≤ n.toNat ∧ n.toNat ≤ 32 ∧ a.toNat < n.toNat ∧ r.toNat ≤ 5 ∧ 6 ≤ sl.toNat ∧ sl.toNat ≤ 16
        ∧ 1 ≤ l.toNat ∧ l.toNat ≤ 15 ∧ 1 ≤ h.toNat) →
      exec (.setup h) s = .next { s with
        hp := s.hp.answeredAfter h .ok []
        ac := { s.ac with
          setup := { address := a.toNat, roster := n.toNat, rate := r.toNat, slot := sl.toNat, retry := l.toNat,
                     holdOff := h.toNat, valid := true }
          order := [] } })) ∧
  (∀ s : State, s.hp.transaction = .parameters →
    exec .selHigh s = .next { s with hp := { State.reset.hp with mask := s.hp.mask } })

/-- JOIN: WRONG-STATE outside OFFLINE, NO-SETUP on an invalid record, with no effect; otherwise the list is
ascending, restart pending set, the collision count 0, every peer entry at its JOIN values, the FU and the tracker
at their first values, the station LISTENING, and sensing begins: QUIET on an undriven line, ACTIVE with a partial
burst on a driven one. That the time base stands at 0 then, and the burst's start with it, is log 10's choice; whether
the line is driven is what was last told (log 9). Model choices: logs 1, 9, 10. -/
def Obligations.JoinStartsListening : Prop :=
  ∀ s : State, s.hp.transaction = .command →
    (s.ac.station ≠ .offline → exec .join s = .next { s with hp := s.hp.answered (some .join) .wrongState [] }) ∧
    (s.ac.station = .offline → s.ac.setup.valid = false →
      exec .join s = .next { s with hp := s.hp.answered (some .join) .noSetup [] }) ∧
    (s.ac.station = .offline → s.ac.setup.valid = true → exec .join s = .next { s with
      hp := s.hp.answered (some .join) .ok []
      li := { State.reset.li with
        sensing := if s.li.lineDriven then .active else .quiet
        burst := if s.li.lineDriven then
            some { start := 0, length := 1, isOwn := false, isPartial := true, candidate := false, handed := 0, held := false }
          else none
        lineDriven := s.li.lineDriven }
      fu := State.reset.fu
      ac := { s.ac with
        station := .listening
        order := List.range s.ac.setup.roster
        restartPending := true
        collisions := 0
        tracker := { State.reset.ac.tracker with activitySeen := s.li.lineDriven } }
      peers := State.reset.peers
      re := { s.re with staging := none } })

/-- LEAVE: WRONG-STATE in OFFLINE; no change in LEAVING; LEAVING during an own access or an answer; otherwise
OFFLINE at once: sensing ends, hold-offs stop with their remaining times, every entry finishes WITHDRAWN, oldest
first, with its blocks returned and its sequence advanced, and restart pending is cleared; list, ring, notices,
setup and collision count are kept. Model choices: log 1. -/
def Obligations.LeaveEntersLeavingOrOffline : Prop :=
  ∀ s : State, s.hp.transaction = .command →
    (s.ac.station = .offline → exec .leave s = .next { s with hp := s.hp.answered (some .leave) .wrongState [] }) ∧
    (s.ac.station = .leaving → exec .leave s = .next { s with hp := s.hp.answered (some .leave) .ok [] }) ∧
    (s.ac.station = .listening ∨ s.ac.station = .resync ∨ s.ac.station = .online →
      s.ac.tracker.access.claim ≠ none ∨ answering s = true →
      exec .leave s = .next { s with hp := s.hp.answered (some .leave) .ok [], ac := { s.ac with station := .leaving } }) ∧
    (s.ac.station = .halted ∨
        ((s.ac.station = .listening ∨ s.ac.station = .resync ∨ s.ac.station = .online)
          ∧ s.ac.tracker.access.claim = none ∧ answering s = false) →
      ∃ t, exec .leave s = .next t ∧
        t.hp = s.hp.answered (some .leave) .ok [] ∧
        t.li = { s.li with sensing := .off, tx := none, burst := none, stuckTimer := 0 } ∧
        t.fu = State.reset.fu ∧
        t.ac = { s.ac with station := .offline, restartPending := false, tracker := State.reset.ac.tracker } ∧
        t.te = { queue := [], completions := s.te.completions ++ s.te.queue.map fun e =>
          { tag := e.tag, destination := e.destination, outcome := .withdrawn, attempts := e.attempts,
            sequence := e.sequence, duplicateNote := false, lastAnswer := e.lastAnswer } } ∧
        t.freeBlocks = s.freeBlocks + (s.te.queue.map fun e => (e.length + 31) / 32).sum ∧
        (∀ a < 32, peerEntry t a = { peerEntry s a with
          nextSend := (peerEntry s a).nextSend
            + BitVec.ofNat 4 (s.te.queue.countP fun e => e.destination = .peer a ∧ e.sequence ≠ none)
          holdOff := (peerEntry s a).holdOff.map fun
            | .running expiry => .frozen (expiry - s.li.time)
            | .frozen remaining => .frozen remaining }) ∧
        t.re = { s.re with staging := none } ∧ t.notices = s.notices ∧
        t.resetHeld = s.resetHeld ∧ t.choice = s.choice ∧ t.pending = s.pending)

/-- SUBMIT at its length byte: the first test that applies gives the reply, and only an accepted one changes
anything: the SUBMIT is open, its blocks reserved with at least 16 left free. Model choices: logs 1, 11. -/
def Obligations.SubmitIsJudgedAndOpens : Prop :=
  ∀ (k d th tl len : Byte) (s : State), s.hp.transaction = .parameters → s.hp.command = some .submit →
    s.hp.parameters = [k, d, th, tl] →
    let blocks := (len.toNat + 31) / 32
    let reply : Reply :=
      if s.ac.station ≠ .listening ∧ s.ac.station ≠ .resync ∧ s.ac.station ≠ .online then .wrongState
      else if 240 < len.toNat ∨ (k ≠ 0 ∧ len ≠ 0) then .badLength
      else if (d = 63 ∧ k ≠ 0) ∨ (d ≠ 63 ∧ s.ac.setup.roster ≤ d.toNat) ∨ (d ≠ 63 ∧ d.toNat = s.ac.setup.address)
        then .badDest
      else if (∃ e ∈ s.te.queue, e.tag = wordOfBytes th tl) ∨ (∃ c ∈ s.te.completions, c.tag = wordOfBytes th tl) then .duplicateTag
      else if 32 ≤ s.te.queue.length + s.te.completions.length then .queueFull
      else if len ≠ 0 ∧ s.freeBlocks < blocks + 16 then .noSpace
      else .ok
    (reply ≠ .ok → exec (.submit len) s = .next { s with hp := s.hp.answeredAfter len reply [] }) ∧
    (reply = .ok → exec (.submit len) s = .next { s with
      hp := { s.hp.answeredAfter len .ok [] with
        submit := some { kind := if k = 0 then .data else .probe
                         destination := if d = 63 then .all else .peer d.toNat
                         tag := wordOfBytes th tl, length := len.toNat, received := [] } }
      freeBlocks := s.freeBlocks - blocks } ∧ (len ≠ 0 → 16 ≤ s.freeBlocks - blocks))

/-- At SEL high an open SUBMIT whose payload is complete joins the tail of the queue, with the reserved blocks as
its own; an incomplete one returns its reservation and nothing joins. The joining tests the need to send (R47): in REST a
station in RESYNC, or ONLINE with restart pending or an eligible entry, sends a wake mark at once; with no such need, and
outside REST, nothing is sent. A mark that begins in the first bit time of a burst makes it own (R5), and one that begins
later does not (log 23). Model choices: log 23. -/
def Obligations.SubmitJoinsOrReturns : Prop :=
  ∀ (s : State) (o : OpenSubmit), s.hp.transaction = .decided → s.hp.command = some .submit → s.hp.submit = some o →
    (o.received.length ≠ o.length → exec .selHigh s = .next { s with
      hp := { State.reset.hp with mask := s.hp.mask }, freeBlocks := s.freeBlocks + (o.length + 31) / 32 }) ∧
    (o.received.length = o.length → ∃ t, exec .selHigh s = .next t ∧
      t.te = { s.te with queue := s.te.queue ++
        [{ tag := o.tag, kind := o.kind, destination := o.destination, length := o.length, payload := o.received,
           sequence := none, attempts := 0, state := .waiting, cancelPending := false, lastAnswer := none }] } ∧
      t.hp = { State.reset.hp with mask := s.hp.mask } ∧ t.freeBlocks = s.freeBlocks ∧ t.fu = s.fu ∧
      t.peers = s.peers ∧ t.re = s.re ∧ t.notices = s.notices ∧ t.resetHeld = s.resetHeld ∧ t.choice = s.choice ∧
      t.pending = s.pending ∧
      (let need := s.ac.station = .resync ∨
         (s.ac.station = .online ∧ (s.ac.restartPending = true ∨ (selectEntry t).isSome = true))
       (s.ac.tracker.phase ≠ .rest ∨ ¬need → t.li = s.li ∧ t.ac = s.ac) ∧
       (s.ac.tracker.phase = .rest → need → s.li.tx = none → claimOpen s = false →
         t.li = { s.li with
           tx := some { owner := .mark, symbols := [true, false, true, false], start := s.li.time }
           stuckTimer := 0
           burst := s.li.burst.map (Burst.drivenFrom s.li.time) } ∧
         t.ac = { s.ac with tracker := { s.ac.tracker with access := { s.ac.tracker.access with
           claim := some { slot := none, content := .wake, progress := .wake, markedAt := s.li.time } } } })))

/-- CANCEL: a WAITING entry finishes CANCELLED at once with reply OK; an IN-FLIGHT one is marked cancel-pending with
reply PENDING; no entry with the tag gives NOT-FOUND. Model choices: log 1. -/
def Obligations.CancelFinishesOrMarks : Prop :=
  ∀ (th tl : Byte) (s : State), s.hp.transaction = .parameters → s.hp.command = some .cancel → s.hp.parameters = [th] →
    ((∀ e ∈ s.te.queue, e.tag ≠ wordOfBytes th tl) →
      exec (.cancel tl) s = .next { s with hp := s.hp.answeredAfter tl .notFound [] }) ∧
    (∀ e, findEntry s (wordOfBytes th tl) = some e → e.state = .inFlight →
      exec (.cancel tl) s = .next { s with
        hp := s.hp.answeredAfter tl .pending []
        te := { s.te with queue := s.te.queue.map fun x =>
          if x.tag = wordOfBytes th tl then { x with cancelPending := true } else x } }) ∧
    (∀ e, findEntry s (wordOfBytes th tl) = some e → e.state = .waiting → ∃ t, exec (.cancel tl) s = .next t ∧
      Finished e .cancelled false e.lastAnswer s t ∧ t.hp = s.hp.answeredAfter tl .ok [] ∧
      (∀ a < 32, peerEntry t a = { peerEntry s a with
        nextSend := (peerEntry s a).nextSend + if e.destination = .peer a ∧ e.sequence ≠ none then 1 else 0 }) ∧
      t.li = s.li ∧ t.fu = s.fu ∧ t.ac = s.ac ∧ t.re = s.re ∧ t.notices = s.notices ∧ t.resetHeld = s.resetHeld ∧
      t.choice = s.choice ∧ t.pending = s.pending)

/-- GATE (R97): WRONG-STATE in OFFLINE, BAD-ADDRESS for an address that is no peer, otherwise OK and the gate takes
the setting, and nothing else changes. A GATE abandoned before its second byte has no effect. -/
def Obligations.GateSetsPeerGate : Prop :=
  (∀ (a b : Byte) (s : State), s.hp.transaction = .parameters → s.hp.command = some .gate → s.hp.parameters = [a] →
    exec (.byteReceived b) s = exec (.gate b) s ∧
    (s.ac.station = .offline → exec (.gate b) s = .next { s with hp := s.hp.answeredAfter b .wrongState [] }) ∧
    (s.ac.station ≠ .offline → ¬(a.toNat < s.ac.setup.roster ∧ a.toNat ≠ s.ac.setup.address) →
      exec (.gate b) s = .next { s with hp := s.hp.answeredAfter b .badAddress [] }) ∧
    (s.ac.station ≠ .offline → a.toNat < s.ac.setup.roster → a.toNat ≠ s.ac.setup.address →
      exec (.gate b) s = .next { s with
        hp := s.hp.answeredAfter b .ok []
        peers := s.peers.setIfInBounds a.toNat
          { peerEntry s a.toNat with gate := if b = 0 then .opened else .closed } })) ∧
  (∀ s : State, s.hp.transaction = .parameters →
    exec .selHigh s = .next { s with hp := { State.reset.hp with mask := s.hp.mask } })

/-- RELEASE (R140): EMPTY and no change on an empty ring; otherwise OK, the oldest record is removed and its blocks
return. One abandoned before its command byte has no effect, and SEL high after it undoes nothing. -/
def Obligations.ReleaseRemovesOldestRecord : Prop :=
  ∀ s : State, s.hp.transaction = .command →
    exec (.byteReceived 0x21) s = exec .release s ∧
    (s.re.ring = [] → exec .release s = .next { s with hp := s.hp.answered (some .release) .empty [] }) ∧
    (∀ r rest, s.re.ring = r :: rest → exec .release s = .next { s with
      hp := s.hp.answered (some .release) .ok []
      re := { s.re with ring := rest }
      freeBlocks := s.freeBlocks + (r.length + 31) / 32 }) ∧
    exec .selHigh s = .next { s with hp := { State.reset.hp with mask := s.hp.mask } } ∧
    ∀ t : State, t.hp.transaction = .decided → t.hp.command = some .release →
      exec .selHigh t = .next { t with hp := { State.reset.hp with mask := t.hp.mask } }

/-- MASK (R170): the three flags take the new values, ATTN follows them at once, and the reply is OK; nothing else
changes. A MASK abandoned in PARAMETERS leaves the mask. A hard reset enables all classes; every other command and
event keeps the mask, which affects no pending item and no count. -/
def Obligations.MaskSetsAttention : Prop :=
  (∀ (c r n : Byte) (s : State), s.hp.transaction = .parameters → s.hp.command = some .mask → s.hp.parameters = [c, r] →
    exec (.mask n) s = .next { s with hp := { s.hp.answeredAfter n .ok [] with
      mask := { completions := decide (c ≠ 0), receptions := decide (r ≠ 0), notices := decide (n ≠ 0) } } }) ∧
  (∀ s : State, attention s = true ↔
    (s.hp.mask.completions = true ∧ s.te.completions ≠ []) ∨ (s.hp.mask.receptions = true ∧ s.re.ring ≠ []) ∨
    (s.hp.mask.notices = true ∧ s.notices ≠ [])) ∧
  (∀ s t : State, exec .hardReset s = .next t →
    t.hp.mask = { completions := true, receptions := true, notices := true }) ∧
  (∀ s : State, s.hp.transaction = .command → exec (.byteReceived 0x50) s = .next { s with hp := { s.hp with
    transaction := .parameters, command := some .mask, parameters := [], sdo := some (s.hp.summary.getD 0) } }) ∧
  (∀ (n : Byte) (s : State), s.hp.transaction = .parameters → s.hp.command = some .mask → s.hp.parameters.length = 2 →
    exec (.byteReceived n) s = exec (.mask n) s) ∧
  (∀ (m : AttentionMask) (s : State), let s' := { s with hp := { s.hp with mask := m } }
    completionPending s' = completionPending s ∧ receivePending s' = receivePending s ∧
    noticePending s' = noticePending s ∧ (statusBytes s').drop 1 = (statusBytes s).drop 1) ∧
  (∀ (i : Instr) (s t : State), i ≠ .hardReset → (∀ b, i ≠ .mask b) → (∀ b, i ≠ .byteReceived b) →
    exec i s = .next t → t.hp.mask = s.hp.mask) ∧
  (∀ (b : Byte) (s t : State), exec (.byteReceived b) s = .next t →
    ¬(s.hp.transaction = .parameters ∧ s.hp.command = some .mask ∧ 2 ≤ s.hp.parameters.length) →
    t.hp.mask = s.hp.mask)

/-! ### The line interface -/

/-- The active event: the LI is ACTIVE with a new burst of length 1, own exactly if this station's driver began at
that bit time; the stuck timer starts from 0. At the AC it ends a round and rest, makes the unclaimed count 0, stops
the guard count, sets activity-seen in UNALIGNED, and keeps the slot of the round's first burst. The sixth bit time
of a burst that is not partial makes it a frame candidate: the deframer takes a foreign one to HUNT and an own one
to DISCARD, and the access record follows the first foreign one. That the line's level is kept as driven is log 9's
choice, and the slot of the burst, counted from the time and no higher than 2N−1, log 24's. That the deframer takes all
its first values with a candidate, beside HUNT or DISCARD, is log 13's choice. A FRAME_CANDIDATE taken after the sixth bit
time finds the burst as long as it is (log 5). Model choices: logs 5, 6, 9, 13, 24. -/
def Obligations.BurstBeginsAndBecomesCandidate : Prop :=
  (∀ (n : Nat) (s : State), s.li.sensing = .quiet → ∃ t b, exec (.activeEvent n) s = .next t ∧
      t.li = { s.li with sensing := .active, burst := some b, stuckTimer := 0, time := s.li.time + n, lineDriven := true } ∧
      b = { start := s.li.time + n, length := 1, isOwn := b.isOwn, isPartial := false, candidate := false, handed := 0, held := false } ∧
      (b.isOwn = true ↔ ∃ x, s.li.tx = some x ∧ x.start = s.li.time + n) ∧
      t.ac.tracker = { s.ac.tracker with
        phase := if s.ac.tracker.phase = .unaligned then .unaligned else .access
        unclaimed := 0
        guard := none
        activitySeen := s.ac.tracker.activitySeen || decide (s.ac.tracker.phase = .unaligned)
        restDetect := if s.ac.tracker.phase = .unaligned ∧ s.ac.tracker.activitySeen = false
          then s.ac.tracker.restDetect + n else s.ac.tracker.restDetect
        access := { s.ac.tracker.access with
          burstSlot := if s.ac.tracker.phase = .round
            then some (min (2 * s.ac.setup.roster - 1)
              ((s.li.time + n - s.ac.tracker.roundStart.getD 0) / s.ac.setup.slot))
            else none } } ∧
      OrderKept s t ∧ t.fu = s.fu ∧ MessagesKept s t) ∧
  (∀ (s : State) (b : Burst), s.li.sensing = .active → s.li.burst = some b → b.isPartial = false → b.candidate = false →
      s.fu.deframer.phase = .quiet → ∃ t, exec .frameCandidate s = .next t ∧
      t.li = { s.li with
        time := s.li.time + (6 - b.length)
        burst := some { b with length := max 6 b.length, candidate := true }
        stuckTimer := t.li.stuckTimer } ∧
      t.fu = { s.fu with deframer := { State.reset.fu.deframer with phase := if b.isOwn then .discard else .hunt } } ∧
      t.ac.tracker = { s.ac.tracker with
        access := if b.isOwn = false ∧ s.ac.tracker.access.candidateSeen = false
          then { s.ac.tracker.access with candidateSeen := true, following := true } else s.ac.tracker.access } ∧
      OrderKept s t ∧ MessagesKept s t)

/-- A burst of 1 to 5 bit times that is not partial ends as a mark: the LI is QUIET, the quiet interval already
stands at 2, and a burst that began in a round sets the observed mark slot. Nothing reaches the deframer; an answer
window that waits is judged unanswered by a foreign mark. A partial burst, and a burst whose candidate is in
DISCARD, end with no mark slot, no report, no decision and no notice; a partial burst does not judge an answer
window that waits (log 20), and a foreign discarded candidate judges it unanswered. That the deframer takes all its first
values on the return to QUIET is log 13's choice. The deframer is out of QUIET only with a candidate under way, which every step keeps
(StepsKeepCapacitiesAndCounts). That the line's level is kept as undriven is log 9's choice. Model choices: logs 9, 13,
17, 20. -/
def Obligations.QuietEventEndsBurst : Prop :=
  (∀ (s : State) (b : Burst), DeframerFollowsCandidate s → BurstMayEnd s b → b.isPartial = false →
      b.candidate = false → b.length ≤ 5 → ∃ t, exec (.quietEvent 0) s = .next t ∧
        t.li = { s.li with sensing := .quiet, burst := none, lineDriven := false,
                           time := max s.li.time (b.start + b.length + 2) } ∧
        t.fu.deframer = s.fu.deframer ∧ t.fu.framer = s.fu.framer ∧
        (∀ k d q, s.fu.window = .opened k d q true → b.isOwn = false → t.fu.window = .judged k d q none) ∧
        (∀ k d q, s.fu.window = .opened k d q true → b.isOwn = true → t.fu.window = s.fu.window) ∧
        (∀ k d q, s.fu.window = .opened k d q false → t.fu.window = .opened k d q true) ∧
        ((∀ k d q x, s.fu.window ≠ .opened k d q x) → t.fu.window = s.fu.window) ∧
        t.ac.tracker = { s.ac.tracker with
          guard := if s.ac.tracker.phase = .access ∨ s.ac.tracker.phase = .unaligned then some 2 else s.ac.tracker.guard
          access := { s.ac.tracker.access with
            observed := if s.ac.tracker.access.burstSlot = none then s.ac.tracker.access.observed
                        else s.ac.tracker.access.burstSlot
            burstSlot := none
            following := false } } ∧
        OrderKept s t ∧ MessagesKept s t) ∧
  (∀ (s : State) (b : Burst), BurstMayEnd s b →
      b.isPartial = true ∨ (b.isPartial = false ∧ b.candidate = true ∧ 6 ≤ b.length ∧ s.fu.deframer.phase = .discard) →
      ∃ t, exec (.quietEvent 0) s = .next t ∧
        t.li = { s.li with sensing := .quiet, burst := none, lineDriven := false,
                           time := max s.li.time (b.start + b.length + 2) } ∧
        t.fu.deframer = (if b.isPartial then s.fu.deframer else State.reset.fu.deframer) ∧ t.fu.framer = s.fu.framer ∧
        (b.isPartial = true ∨ b.isOwn = true →
          ∀ k d q, s.fu.window = .opened k d q true → t.fu.window = s.fu.window) ∧
        (b.isPartial = false → b.isOwn = false →
          ∀ k d q, s.fu.window = .opened k d q true → t.fu.window = .judged k d q none) ∧
        ((∀ k d q x, s.fu.window ≠ .opened k d q x) → t.fu.window = s.fu.window) ∧
        (∀ k d q, s.fu.window = .opened k d q false → t.fu.window = .opened k d q true) ∧
        t.ac.tracker = { s.ac.tracker with
          guard := if s.ac.tracker.phase = .access ∨ s.ac.tracker.phase = .unaligned then some 2 else s.ac.tracker.guard
          access := { s.ac.tracker.access with burstSlot := none, following := false } } ∧
        OrderKept s t ∧ MessagesKept s t)

/-- Echo pass of a claim mark: the driver is released and the claim is HELD; of a wake mark: the driver is released
and nothing else happens; of an answer: the framer returns to IDLE. Echo pass of an own frame: the claim is PASSED,
the address-collision count becomes 0, restart pending is cleared by a restart-bearing ORDER-RESET and by nothing
else, the entry's attempts go up by 1, and a unicast frame, but no other, opens the answer window. Model choices:
log 17. -/
def Obligations.EchoPassGoesToOwner : Prop :=
  (∀ (s : State) (x : Transmission), s.li.tx = some x → ∃ t, exec .echoPass s = .next t ∧
      t.li.tx = none ∧ t.li.stuckTimer = 0 ∧ t.hp = s.hp ∧ t.peers = s.peers ∧ t.re = s.re ∧ t.notices = s.notices ∧
      t.freeBlocks = s.freeBlocks ∧ t.pending = s.pending ∧
      (x.owner = .mark → t.fu = s.fu ∧ t.te = s.te ∧
        (∀ c, s.ac.tracker.access.claim = some c → c.progress = .marked →
          t.ac.tracker.access = { s.ac.tracker.access with claim := some { c with progress := .held } }) ∧
        (∀ c, s.ac.tracker.access.claim = some c → c.progress = .wake → t.ac.tracker.access = s.ac.tracker.access)) ∧
      (x.owner = .answer → t.fu = { s.fu with framer := .idle } ∧ t.te = s.te ∧
        t.ac.tracker.access = s.ac.tracker.access)) ∧
  (∀ (s : State) (x : Transmission) (r : FrameRequest) (c : OwnClaim), s.li.tx = some x → x.owner = .frame →
      s.fu.framer = .frame r → s.ac.tracker.access.claim = some c → ∃ t, exec .echoPass s = .next t ∧
        t.li.tx = none ∧ t.fu.framer = .idle ∧ t.fu.deframer = s.fu.deframer ∧
        t.ac.tracker.access.claim = some { c with progress := .passed } ∧ t.ac.collisions = 0 ∧
        t.ac.restartPending = (s.ac.restartPending && !(r.kind == .orderReset && r.payload.getD 1 0 == 1)) ∧
        t.ac.station = s.ac.station ∧ t.ac.order = s.ac.order ∧ t.ac.setup = s.ac.setup ∧
        (∀ tag, c.content = .entry tag → t.te = { s.te with queue := s.te.queue.map fun e =>
          if e.tag = tag then { e with attempts := e.attempts + 1 } else e }) ∧
        ((∀ tag, c.content ≠ .entry tag) → t.te = s.te) ∧
        ((r.kind = .dataDirect ∨ r.kind = .probe) →
          ∃ armed, t.fu.window = .opened r.kind r.destination r.sequence armed) ∧
        ((r.kind = .dataAll ∨ r.kind = .orderReset) → t.fu.window = s.fu.window) ∧
        t.peers = s.peers ∧ t.re = s.re ∧ t.notices = s.notices ∧ t.freeBlocks = s.freeBlocks ∧ HostSideKept s t)

/-- An echo mismatch releases the driver, drops the transmission, and marks the burst partial, no longer own; the
candidate it fed ends with no report, and a frame report that followed it is absent again (BurstMarkedPartial). A claim
mark is withdrawn, and its entry returns to WAITING with no attempt counted, or finishes CANCELLED; no notice is raised.
The mismatch of a wake mark has no effect on the claim, the queue or the peers. An answer is lost, with no retry and no
notice. That the deframer takes all its first values on the return to QUIET is log 13's choice. What becomes of the peer of
an entry that finishes is stated in FinishingReturnsBlocksAndAdvances. Model choices: log 13. -/
def Obligations.EchoMismatchOfMarkOrAnswer : Prop :=
  ∀ (s : State) (x : Transmission), s.li.tx = some x → x.owner ≠ .frame → ∃ t, exec (.echoMismatch 0) s = .next t ∧
    BurstMarkedPartial s t ∧ t.notices = s.notices ∧ OrderKept s t ∧ t.choice = s.choice ∧ HostSideKept s t ∧
    (x.owner = .answer → t.fu.framer = .idle) ∧
    (x.owner = .mark → t.fu.framer = s.fu.framer) ∧
    (x.owner = .answer ∨ claimProgress s ≠ some .marked → t.ac.tracker.access.claim = s.ac.tracker.access.claim ∧
      t.te = s.te ∧ t.peers = s.peers ∧ t.freeBlocks = s.freeBlocks) ∧
    (x.owner = .mark → ∀ c, s.ac.tracker.access.claim = some c → c.progress = .marked →
        t.ac.tracker.access.claim = some { c with progress := .withdrawn } ∧
        ((∀ tag, c.content ≠ .entry tag) → t.te = s.te ∧ t.peers = s.peers ∧ t.freeBlocks = s.freeBlocks) ∧
        (∀ tag e, c.content = .entry tag → findEntry s tag = some e →
          (e.cancelPending = false → t.te = { s.te with queue := s.te.queue.map fun y =>
              if y.tag = tag then { y with state := .waiting } else y } ∧
            t.peers = s.peers ∧ t.freeBlocks = s.freeBlocks) ∧
          (e.cancelPending = true → Finished e .cancelled false e.lastAnswer s t)))

/-- An echo mismatch of an own frame is a collision: the claim is MISMATCHED, its entry returns to WAITING with no
attempt counted or finishes CANCELLED, and COLLISION is raised. An ORDER-RESET in the address slot counts, and the
fourth takes the station to HALTED at once, with ADDRESS-CONFLICT after COLLISION; any other collision leaves the
count. At a station that does not halt the burst goes on marked partial, no longer own, with the deframer in QUIET
(BurstMarkedPartial), and no peer's entry changes unless an entry with a cancel pending finishes; at one that halts the
FU is at its first values, no burst is kept, and every hold-off keeps its remaining time. That the deframer takes all its
first values on the return to QUIET is log 13's choice. Model choices: log 13. -/
def Obligations.EchoMismatchOfFrameIsCollision : Prop :=
  ∀ (s : State) (x : Transmission) (c : OwnClaim), s.li.tx = some x → x.owner = .frame →
    s.ac.tracker.access.claim = some c → s.ac.collisions ≤ 3 → ∃ t, exec (.echoMismatch 0) s = .next t ∧
      t.li.tx = none ∧ t.fu.framer = .idle ∧ t.ac.order = s.ac.order ∧ t.ac.setup = s.ac.setup ∧
      t.ac.restartPending = s.ac.restartPending ∧ t.re = { s.re with staging := none } ∧ HostSideKept s t ∧
      Collided c s t ∧
      (let halts := c.content = .orderReset ∧ (∃ k, c.slot = some k ∧ k < s.ac.setup.roster) ∧ s.ac.collisions = 3
       (¬halts → BurstMarkedPartial s t ∧
         ((∀ tag e, c.content = .entry tag → findEntry s tag = some e → e.cancelPending = false) → t.peers = s.peers)) ∧
       (halts → t.li = { s.li with sensing := .off, tx := none, burst := none, stuckTimer := 0 } ∧
         t.fu = State.reset.fu ∧
         ∀ a, peerEntry t a = { peerEntry s a with
           holdOff := (peerEntry s a).holdOff.map fun
             | .running expiry => .frozen (expiry - s.li.time)
             | .frozen remaining => .frozen remaining }))

/-- The stuck declaration: the LI is STUCK with its timer at 4096, the access record is empty, and an ONLINE station
enters RESYNC, while RESYNC and LISTENING stay and LEAVING goes to OFFLINE with its queue flushed. Without an
outcome to take, LINE-STUCK is the one notice. The free declaration in STUCK: the LI is QUIET, LINE-FREE is raised,
and the quiet event starts the guard count at 2. A candidate that the burst fed is in DISCARD by then, and the
deframer returns to QUIET with no report. What a passed claim's entry becomes at the stuck event is stated in
AttemptOutcome. A STUCK taken before the timer stands at 4096 lets the bit times pass up to it (log 5), and that the
line's level is kept as undriven is log 9's choice, and that the deframer takes all its first values on the return to
QUIET log 13's. Model choices: logs 5, 8, 9, 13. -/
def Obligations.StuckAndFreeLine : Prop :=
  (∀ s : State, s.li.sensing = .active → s.li.tx = none → claimUnsettled s = false → s.li.stuckTimer ≤ 4096 →
      ∃ t, exec .stuck s = .next t ∧
        t.ac.tracker.access = AccessRecord.empty ∧ t.ac.order = s.ac.order ∧ t.ac.setup = s.ac.setup ∧
        t.ac.collisions = s.ac.collisions ∧ t.re.ring = s.re.ring ∧ t.re.missed = s.re.missed ∧ t.fu.window = .closed ∧
        HostSideKept s t ∧
        (s.ac.station = .leaving →
          t.ac.station = .offline ∧ t.li.sensing = .off ∧ t.te.queue = [] ∧ t.ac.restartPending = false) ∧
        (s.ac.station = .online ∨ s.ac.station = .resync ∨ s.ac.station = .listening →
          t.ac.station = (if s.ac.station = .online then .resync else s.ac.station) ∧ t.li.sensing = .stuck ∧
          t.li.stuckTimer = 4096 ∧ t.ac.tracker.phase = s.ac.tracker.phase ∧
          t.ac.restartPending = s.ac.restartPending) ∧
        (outcomeDue s = false →
          t.notices = addNotice (underRead s) { kind := .lineStuck, subject := none, detail := none } s.notices ∧
          (s.ac.station ≠ .leaving → t.te = s.te ∧ t.peers = s.peers ∧ t.freeBlocks = s.freeBlocks))) ∧
  (∀ (s : State) (b : Burst), s.li.sensing = .stuck → s.li.burst = some b → 6 ≤ b.length →
      (b.isPartial = false ∧ b.candidate = true → s.fu.deframer.phase = .discard) →
      ∃ t, exec (.free 0) s = .next t ∧
        t.li = { s.li with sensing := .quiet, burst := none, lineDriven := false,
                           time := max s.li.time (b.start + b.length + 2) } ∧
        ((∀ k d q x, s.fu.window ≠ .opened k d q x) → t.fu.window = s.fu.window) ∧ t.fu.framer = s.fu.framer ∧
        t.notices = addNotice (underRead s) { kind := .lineFree, subject := none, detail := none } s.notices ∧
        t.ac.tracker = { s.ac.tracker with
          guard := if s.ac.tracker.phase = .access ∨ s.ac.tracker.phase = .unaligned then some 2 else s.ac.tracker.guard
          access := { s.ac.tracker.access with
            burstSlot := none
            following := false } } ∧
        (b.isPartial = false ∧ b.candidate = true → t.fu.deframer = State.reset.fu.deframer) ∧
        OrderKept s t ∧ t.te = s.te ∧ t.re.ring = s.re.ring ∧ t.peers = s.peers ∧ t.freeBlocks = s.freeBlocks ∧
        HostSideKept s t)

/-! ### The deframer -/

/-- A reading that brings no further event only moves the deframer: in HUNT it joins the last 16, in HEADER and BODY
it is the next bit, in TAIL it is an end symbol, in DISCARD nothing. The reading that completes a header byte before
the last feeds the byte to the header check. The reading that completes a payload byte feeds it to the body check and
passes it to the staging buffer; a check byte goes to neither. A bad reading in BODY or a wrong end symbol sets
body-failed; the bit a bad reading stands for is a free value (log 7). An undriven bit time is held, and nothing is
passed on: behind it a driven one passes on a bad reading and then its own, and a second undriven one is the quiet
event, or in STUCK the free event. Model choices: logs 2, 7, 14. -/
def Obligations.ReadingMovesDeframer : Prop :=
  (∀ (r : Reading) (s : State) (b : Burst), HandedBurst s b →
    let d := s.fu.deframer
    ∃ t, exec (.reading (some r)) s = .next t ∧
      (t.li.burst.map (·.handed)) = some (b.handed + 1) ∧ t.hp = s.hp ∧ t.te = s.te ∧ t.pending = s.pending ∧
      (d.phase = .quiet ∨ d.phase = .discard → t.fu = s.fu ∧ t.notices = s.notices ∧ t.re = s.re) ∧
      (d.phase = .hunt → d.count < 31 → (r :: d.recent).take 16 ≠ syncReadings →
        t.fu = { s.fu with deframer := { d with recent := (r :: d.recent).take 16, count := d.count + 1 } } ∧
        t.notices = s.notices ∧ t.re = s.re) ∧
      (d.phase = .header → d.bits.length < 7 → ∀ x, r = Reading.ofBit x →
        t.fu = { s.fu with deframer := { d with bits := d.bits ++ [x] } } ∧ t.notices = s.notices ∧ t.re = s.re) ∧
      (d.phase = .header → d.bits.length = 7 → ∀ x, r = Reading.ofBit x →
        let byte := byteOfBits (d.bits ++ [x])
        d.headerBytes.length + 1 ≠ headerLength (d.headerBytes ++ [byte]) →
        t.fu = { s.fu with deframer := { d with
          bits := [], headerBytes := d.headerBytes ++ [byte], headerCheck := headerCheckByte d.headerCheck byte } } ∧
        t.notices = s.notices ∧ t.re = s.re) ∧
      (d.phase = .body → d.bits.length < 7 → 1 < d.expected →
        ∃ x, (∀ y, r = Reading.ofBit y → x = y) ∧
          t.fu = { s.fu with deframer := { d with
            bits := d.bits ++ [x], expected := d.expected - 1, bodyFailed := d.bodyFailed || decide (r = .bad) } } ∧
          t.notices = s.notices ∧ t.re = s.re) ∧
      (d.phase = .body → d.bits.length = 7 → 1 < d.expected → ∀ h, d.header = some h →
        ∃ x, (∀ y, r = Reading.ofBit y → x = y) ∧
          let byte := byteOfBits (d.bits ++ [x])
          let isPayload := d.bodyBytes.length < h.payloadLength
          t.fu = { s.fu with deframer := { d with
            bits := [], expected := d.expected - 1, bodyFailed := d.bodyFailed || decide (r = .bad)
            bodyBytes := d.bodyBytes ++ [byte]
            bodyCheck := if isPayload then bodyCheckByte d.bodyCheck byte else d.bodyCheck } } ∧
          t.re = { s.re with staging :=
            if isPayload then s.re.staging.map fun g => { g with bytes := g.bytes ++ [byte] } else s.re.staging } ∧
          t.notices = s.notices) ∧
      (d.phase = .tail → d.tail < 2 →
        t.fu = { s.fu with deframer := { d with
          tail := d.tail + 1, bodyFailed := d.bodyFailed || decide (r ≠ .one) } } ∧
        t.notices = s.notices ∧ t.re = s.re)) ∧
  (∀ (s : State) (b : Burst), HandedBurst s b → s.li.tx = none →
    let held := { s with li := { s.li with burst := some { b with held := true } } }
    exec (.reading none) s = .next held ∧
    (s.li.sensing = .active → s.li.stuckTimer ≤ 4096 → exec (.reading none) held = exec (.quietEvent 0) held) ∧
    (s.li.sensing = .stuck → exec (.reading none) held = exec (.free 0) held) ∧
    ∃ u, exec (.reading (some .bad)) s = .next u ∧
      ∀ r, exec (.reading (some r)) held = exec (.reading (some r)) u ∧
        (s.fu.deframer.phase = .hunt → s.fu.deframer.count = 30 ∨ s.fu.deframer.count = 31 →
          exec (.noSync r) held = exec (.reading (some r)) held) ∧
        (s.fu.deframer.phase = .header → exec (.headerJudged r) held = exec (.reading (some r)) held) ∧
        (s.fu.deframer.phase = .body → s.fu.deframer.expected = 1 ∨ s.fu.deframer.expected = 2 →
          exec (.bodyCheckTaken r) held = exec (.reading (some r)) held) ∧
        (s.fu.deframer.phase = .tail → s.fu.deframer.tail = 1 ∨ s.fu.deframer.tail = 2 →
          exec (.overrun r) held = exec (.reading (some r)) held))

/-- In HUNT the reading that completes the sync pattern takes the deframer to HEADER with an empty header buffer and
the header check accumulator at its initial value; reading 32 without it is NO-SYNC: DISCARD, header-invalid to the
AC, FRAME-ERROR. The last reading of the body brings the comparison of the check: a difference, a bad reading (the
last one among them), or an ORDER-RESET indicator other than 0 and 1 sets body-failed, and the deframer enters TAIL.
The bit a bad last reading stands for is a free value (log 7). Model choices: logs 2, 7. -/
def Obligations.SyncAndBodyCheckMoveDeframer : Prop :=
  (∀ (s : State) (b : Burst), HandedBurst s b → s.fu.deframer.phase = .hunt →
      ((Reading.zero :: s.fu.deframer.recent).take 16 = syncReadings → ∃ t, exec .syncFound s = .next t ∧
        t.fu = { s.fu with deframer := { s.fu.deframer with
          phase := .header, headerBytes := [], bits := [], headerCheck := 0xFF
          recent := syncReadings, count := s.fu.deframer.count + 1 } } ∧
        t.notices = s.notices ∧ t.te = s.te ∧ t.re = s.re ∧ t.peers = s.peers ∧ t.hp = s.hp ∧
        t.freeBlocks = s.freeBlocks ∧ t.pending = s.pending) ∧
      (∀ r, (r :: s.fu.deframer.recent).take 16 ≠ syncReadings → s.fu.deframer.count = 31 →
        ∃ t, exec (.noSync r) s = .next t ∧
          t.fu.deframer.phase = .discard ∧ t.fu.framer = s.fu.framer ∧ t.fu.window = s.fu.window ∧
          t.ac.tracker.access.report =
            (if s.ac.tracker.access.following then .headerInvalid else s.ac.tracker.access.report) ∧
          t.notices = addNotice (underRead s) { kind := .frameError, subject := none, detail := some .noSync } s.notices ∧
          t.te = s.te ∧ t.re = s.re ∧ t.peers = s.peers ∧ t.hp = s.hp ∧ t.freeBlocks = s.freeBlocks ∧
          t.pending = s.pending)) ∧
  (∀ (r : Reading) (s : State) (b : Burst) (f : FrameHeader), HandedBurst s b → s.fu.deframer.phase = .body →
      s.fu.deframer.expected = 1 → s.fu.deframer.bits.length = 7 → s.fu.deframer.header = some (.frame f) →
      s.fu.deframer.bodyBytes.length = f.length + 1 →
      let d := s.fu.deframer
      ∃ x t, (∀ y, r = Reading.ofBit y → x = y) ∧ exec (.bodyCheckTaken r) s = .next t ∧
        t.fu.deframer.phase = .tail ∧ t.fu.deframer.tail = 0 ∧
        (let last := byteOfBits (d.bits ++ [x])
         let received := wordOfBytes last (d.bodyBytes.getD f.length 0)
         let indicator := (d.bodyBytes ++ [last]).getD 1 0
         t.fu.deframer.bodyFailed = true ↔ d.bodyFailed = true ∨ r = .bad ∨ received ≠ d.bodyCheck ∨
          (f.kind = .orderReset ∧ indicator ≠ 0 ∧ indicator ≠ 1)) ∧
        t.re = s.re ∧ t.notices = s.notices ∧ t.te = s.te ∧ t.peers = s.peers ∧ t.freeBlocks = s.freeBlocks ∧
        t.hp = s.hp ∧ t.pending = s.pending)

/-- The last header reading brings the judgement. A valid header gives BODY or TAIL with the count of symbols
expected, header-valid to the AC, its source to the Peer Table unless it is this station's own, and the staging
buffer for a DATA frame for this station. An invalid header, and a bad reading at once, give HEADER: DISCARD,
header-invalid, FRAME-ERROR. Model choices: log 2. -/
def Obligations.HeaderIsJudged : Prop :=
  ∀ (s : State) (b : Burst), HandedBurst s b → s.fu.deframer.phase = .header →
    let d := s.fu.deframer
    let headerError : Notice := { kind := .frameError, subject := none, detail := some .header }
    (∃ t, exec (.headerJudged .bad) s = .next t ∧ t.fu.deframer.phase = .discard ∧
      t.ac.tracker.access.report =
        (if s.ac.tracker.access.following then .headerInvalid else s.ac.tracker.access.report) ∧
      t.notices = addNotice (underRead s) headerError s.notices ∧ t.peers = s.peers ∧ t.re = s.re ∧ t.te = s.te ∧
      t.hp = s.hp ∧ t.freeBlocks = s.freeBlocks ∧ t.pending = s.pending) ∧
    (∀ x : Bool, d.bits.length = 7 → d.headerBytes.length + 1 = headerLength d.headerBytes → d.headerBytes ≠ [] →
      let bytes := d.headerBytes ++ [byteOfBits (d.bits ++ [x])]
      ∃ t, exec (.headerJudged (Reading.ofBit x)) s = .next t ∧
        t.te = s.te ∧ t.hp = s.hp ∧ t.freeBlocks = s.freeBlocks ∧ t.pending = s.pending ∧
        t.re.ring = s.re.ring ∧ t.re.missed = s.re.missed ∧
        (judgeHeader s.ac.setup.roster bytes d.headerCheck = none →
          t.fu.deframer.phase = .discard ∧ t.notices = addNotice (underRead s) headerError s.notices ∧
          t.peers = s.peers ∧ t.re = s.re ∧
          t.ac.tracker.access.report =
            (if s.ac.tracker.access.following then .headerInvalid else s.ac.tracker.access.report)) ∧
        (∀ h, judgeHeader s.ac.setup.roster bytes d.headerCheck = some h →
          t.fu.deframer.header = some h ∧
          t.fu.deframer.expected = (if h.payloadLength = 0 then 0 else 8 * h.payloadLength + 16) ∧
          t.fu.deframer.phase = (if h.payloadLength = 0 then .tail else .body) ∧
          t.fu.deframer.bodyFailed = false ∧ t.fu.deframer.bodyCheck = 0xFFFF ∧
          t.ac.tracker.access.report =
            (if s.ac.tracker.access.following then .header h .awaited none else s.ac.tracker.access.report) ∧
          (h.source = s.ac.setup.address → t.peers = s.peers ∧ t.notices = s.notices) ∧
          (h.source ≠ s.ac.setup.address →
            t.peers = s.peers.setIfInBounds h.source
              { peerEntry s h.source with presence := .present, unanswered := 0 } ∧
            t.notices = if (peerEntry s h.source).presence = .silent
              then addNotice (underRead s) { kind := .peerBack, subject := some h.source, detail := none } s.notices
              else s.notices) ∧
          (∀ f, h = .frame f → f.source ≠ s.ac.setup.address →
            f.kind = .dataAll ∨ (f.kind = .dataDirect ∧ f.destination = s.ac.setup.address) →
            t.re.staging = some { source := f.source, kind := if f.kind = .dataAll then .all else .direct,
                                  sequence := f.sequence, length := f.length, bytes := [] }) ∧
          ((∀ f, h = .frame f → f.source = s.ac.setup.address ∨ f.kind = .probe ∨ f.kind = .orderReset ∨
              (f.kind = .dataDirect ∧ f.destination ≠ s.ac.setup.address)) → t.re.staging = s.re.staging)))

/-- A reading after the second end symbol is an overrun: DISCARD, frame-end BODY to the AC at once, and nothing else of
the AC; FRAME-ERROR with the source, the staging buffer discarded, and no decision of the RE. (A deframer
in TAIL has the line sensed ACTIVE or STUCK, which every step keeps: StepsKeepCapacitiesAndCounts.) The quiet event before the second end symbol is
TRUNCATED: the deframer returns to QUIET, the AC gets the header if it is known, FRAME-ERROR carries its source if
it is known, nothing is stored, and no answer is due. That the deframer takes all its first values on that return is
log 13's choice. Model choices: logs 2, 13. -/
def Obligations.OverrunAndTruncationAreReported : Prop :=
  (∀ (r : Reading) (s : State) (b : Burst) (h : Header), HandedBurst s b → s.fu.deframer.phase = .tail →
      2 ≤ s.fu.deframer.tail → s.fu.deframer.header = some h → ∃ t, exec (.overrun r) s = .next t ∧
        t.fu.deframer.phase = .discard ∧ t.fu.framer = s.fu.framer ∧
        OrderKept s t ∧
        (s.li.sensing ≠ .quiet → t.ac.tracker = { s.ac.tracker with access := { s.ac.tracker.access with
          report := if s.ac.tracker.access.following then .header h .body none else s.ac.tracker.access.report } }) ∧
        t.notices = addNotice (underRead s)
          { kind := .frameError, subject := some h.source, detail := some .body } s.notices ∧
        t.re = { s.re with staging := none } ∧ t.te = s.te ∧ t.peers = s.peers ∧ t.freeBlocks = s.freeBlocks ∧
        t.hp = s.hp ∧ t.pending = s.pending ∧
        (∀ a k q w, h = .answer a → s.fu.window = .opened k w q true → b.isOwn = false →
          t.fu.window = .judged k w q none)) ∧
  (∀ (s : State) (b : Burst), BurstMayEnd s b → b.isPartial = false → b.candidate = true →
      (s.fu.deframer.phase = .hunt ∨ s.fu.deframer.phase = .header ∨ s.fu.deframer.phase = .body ∨
        (s.fu.deframer.phase = .tail ∧ s.fu.deframer.tail < 2)) →
      ∃ t, exec (.quietEvent 0) s = .next t ∧ t.li.sensing = .quiet ∧ t.li.burst = none ∧
        t.fu.deframer = State.reset.fu.deframer ∧ t.fu.framer = s.fu.framer ∧
        t.ac.tracker.access.report = (if s.ac.tracker.access.following then
          (match s.fu.deframer.header with | some h => .header h .truncated none | none => .truncated)
          else s.ac.tracker.access.report) ∧
        t.notices = addNotice (underRead s) { kind := .frameError, subject := s.fu.deframer.header.map (·.source),
                                              detail := some .truncated } s.notices ∧
        t.re = { s.re with staging := none } ∧ t.te = s.te ∧ t.peers = s.peers ∧ t.freeBlocks = s.freeBlocks ∧
        OrderKept s t ∧ HostSideKept s t)

/-- A header fits the framer's bytes: the header bytes that the framer lays out for a request that the tables of R20
allow are judged valid by any station with the same roster size, and give back every field. The same for the header
of an ANSWER. And conversely: a header that is judged valid is made of the bytes of the fields it gives back and the
check that was accumulated, and its fields are in the ranges of R20, or of R21; every other header is invalid. -/
def Obligations.HeaderRoundTrip : Prop :=
  (∀ (n source : Nat) (r : FrameRequest), n ≤ 32 → source < n →
      (r.kind = .dataDirect ∨ r.kind = .probe → r.destination < n ∧ r.destination ≠ source) →
      (r.kind = .dataAll ∨ r.kind = .orderReset → r.destination = 63) →
      ((n ≤ r.claimSlot ∧ r.claimSlot < 2 * n) ∨ (r.kind = .orderReset ∧ r.claimSlot = source)) →
      (r.kind = .dataDirect ∨ r.kind = .dataAll → r.length ≤ 240) → (r.kind = .probe → r.length = 0) →
      (r.kind = .orderReset → r.length = 2) →
      judgeHeader n (frameHeaderBytes source r) (headerCheckOf ((frameHeaderBytes source r).take 6)) =
        some (.frame { kind := r.kind, source := source, destination := r.destination, claimSlot := r.claimSlot,
                       sequence := r.sequence, length := r.length })) ∧
  (∀ (n source : Nat) (a : Answer), n ≤ 32 → source < n → a.destination < n → a.destination ≠ source →
      judgeHeader n (answerHeaderBytes source a) (headerCheckOf ((answerHeaderBytes source a).take 5)) =
        some (.answer { source := source, destination := a.destination, code := a.code, echo := a.echo })) ∧
  (∀ (n : Nat) (bytes : List Byte) (check : Byte) (f : FrameHeader), judgeHeader n bytes check = some (.frame f) →
      bytes = [f.kind.code, toByte f.source, toByte f.destination, toByte f.claimSlot, f.sequence.setWidth 8,
        toByte f.length, check] ∧
      f.source < n ∧
      (f.kind = .dataDirect ∨ f.kind = .probe → f.destination < n ∧ f.destination ≠ f.source) ∧
      (f.kind = .dataAll ∨ f.kind = .orderReset → f.destination = 63) ∧
      ((n ≤ f.claimSlot ∧ f.claimSlot < 2 * n) ∨ (f.kind = .orderReset ∧ f.claimSlot = f.source)) ∧
      (f.kind = .dataDirect ∨ f.kind = .dataAll → f.length ≤ 240) ∧ (f.kind = .probe → f.length = 0) ∧
      (f.kind = .orderReset → f.length = 2)) ∧
  (∀ (n : Nat) (bytes : List Byte) (check : Byte) (a : AnswerHeader), judgeHeader n bytes check = some (.answer a) →
      bytes = [0x05, toByte a.source, toByte a.destination, a.code.code, a.echo.setWidth 8, check] ∧
      a.source < n ∧ a.destination < n ∧ a.destination ≠ a.source)

/-- A frame deframes to itself: the readings of every symbol of a frame that a station with the same roster size
sends, taken one after another from HUNT, leave the deframer with the frame complete in TAIL, body-failed clear,
every header field, and the payload byte for byte. Of a DATA frame for this station the staging buffer then holds the
header's fields and the payload, byte for byte, which is what the frame end stores. -/
def Obligations.FrameSymbolsDeframe : Prop :=
  ∀ (s : State) (source : Nat) (r : FrameRequest), s.fu.deframer = { State.reset.fu.deframer with phase := .hunt } →
    s.ac.setup.roster ≤ 32 → source < s.ac.setup.roster → r.payload.length = r.length →
    (r.kind = .dataDirect ∨ r.kind = .probe → r.destination < s.ac.setup.roster ∧ r.destination ≠ source) →
    (r.kind = .dataAll ∨ r.kind = .orderReset → r.destination = 63) →
    ((s.ac.setup.roster ≤ r.claimSlot ∧ r.claimSlot < 2 * s.ac.setup.roster) ∨
      (r.kind = .orderReset ∧ r.claimSlot = source)) →
    (r.kind = .dataDirect ∨ r.kind = .dataAll → r.length ≤ 240) → (r.kind = .probe → r.length = 0) →
    (r.kind = .orderReset → r.length = 2 ∧ (r.payload.getD 1 0 = 0 ∨ r.payload.getD 1 0 = 1)) →
    let t := (frameSymbols source r).foldl (fun s x => takeReading (Reading.ofBit x) s) s
    t.fu.deframer.phase = .tail ∧ t.fu.deframer.tail = 2 ∧ t.fu.deframer.bodyFailed = false ∧
      t.fu.deframer.header = some (.frame {
        kind := r.kind, source := source, destination := r.destination, claimSlot := r.claimSlot
        sequence := r.sequence, length := r.length }) ∧
      t.fu.deframer.bodyBytes.take r.length = r.payload ∧ t.te = s.te ∧ t.re.ring = s.re.ring ∧
      (source ≠ s.ac.setup.address →
        r.kind = .dataAll ∨ (r.kind = .dataDirect ∧ r.destination = s.ac.setup.address) →
        t.re.staging = some { source := source, kind := if r.kind = .dataAll then .all else .direct
                              sequence := r.sequence, length := r.length, bytes := r.payload })

/-! ### Reception -/

/-- At the frame end of a DATA-DIRECT for this station the first test that applies gives the answer code:
CHECK-FAIL, CLOSED, DUPLICATE, FULL with REFUSED-FULL, or ACCEPTED with the frame stored, its blocks taken, the
missed-broadcast count handed over and returned to 0, and the last accepted sequence set. The answer is due 2 bit
times after the quiet event. That the deframer takes all its first values on the return to QUIET is log 13's choice. Model
choices: log 13. -/
def Obligations.DataDirectDecision : Prop :=
  ∀ (s : State) (b : Burst) (f : FrameHeader), BurstMayEnd s b → b.isPartial = false → b.candidate = true →
    s.fu.deframer.phase = .tail → s.fu.deframer.tail = 2 → s.fu.deframer.header = some (.frame f) →
    f.kind = .dataDirect → f.destination = s.ac.setup.address → f.source ≠ s.ac.setup.address →
    let p := peerEntry s f.source
    let failed := s.fu.deframer.bodyFailed
    let room := s.re.ring.length < 32 ∧ (f.length + 31) / 32 ≤ s.freeBlocks
    let code : AnswerCode :=
      if failed then .checkFail else if p.gate = .closed then .closed
      else if p.lastAccepted = some f.sequence then .duplicate else if ¬room then .full else .accepted
    ∃ t, exec (.quietEvent 0) s = .next t ∧
      t.fu.framer = .answerDue { destination := f.source, code := code, echo := f.sequence } (t.li.time + 2) ∧
      t.li.time = max s.li.time (b.start + b.length + 2) ∧ t.fu.deframer = State.reset.fu.deframer ∧
      t.re.staging = none ∧ t.te = s.te ∧ OrderKept s t ∧ HostSideKept s t ∧
      t.ac.tracker.access.report = (if s.ac.tracker.access.following
        then .header (.frame f) (if failed then .body else .good) none else s.ac.tracker.access.report) ∧
      (code = .accepted →
        t.re.ring = s.re.ring ++ [{
          source := f.source, kind := .direct, sequence := some f.sequence, length := f.length
          missed := s.re.missed, payload := ((s.re.staging.map (·.bytes)).getD []).take f.length }] ∧
        t.re.missed = 0 ∧ t.freeBlocks = s.freeBlocks - (f.length + 31) / 32 ∧
        t.peers = s.peers.setIfInBounds f.source { p with lastAccepted := some f.sequence } ∧ t.notices = s.notices) ∧
      (code ≠ .accepted → t.re.ring = s.re.ring ∧ t.re.missed = s.re.missed ∧ t.freeBlocks = s.freeBlocks ∧
        t.peers = s.peers ∧
        t.notices =
          if code = .full then
            addNotice (underRead s) { kind := .refusedFull, subject := some f.source, detail := none } s.notices
          else if code = .checkFail then
            addNotice (underRead s) { kind := .frameError, subject := some f.source, detail := some .body } s.notices
          else s.notices)

/-- At the frame end of a PROBE for this station a good end makes the answer PRESENT due, with echo sequence 0,
whatever the gate, the ring and the pool hold; a BODY end is not answered. Nothing is stored. At the frame end of a
foreign DATA-ALL: dropped for a bad body or a closed gate, dropped and counted, at most to 255, for want of room,
and stored otherwise with the missed-broadcast count handed over. No answer follows, and the filter is left. At the
frame end of any other frame (an ORDER-RESET, an ANSWER, a unicast frame for another station, a frame with this
station's own source) nothing is stored and no answer is due: the AC gets the report, with the body of a good
ORDER-RESET, and a BODY end raises FRAME-ERROR. That the deframer takes all its first values on the return to QUIET is log
13's choice. Model choices: log 13. -/
def Obligations.ProbeBroadcastAndOtherFrameEnds : Prop :=
  (∀ (s : State) (b : Burst) (f : FrameHeader), BurstMayEnd s b → b.isPartial = false → b.candidate = true →
      s.fu.deframer.phase = .tail → s.fu.deframer.tail = 2 → s.fu.deframer.header = some (.frame f) →
      f.kind = .probe → f.destination = s.ac.setup.address → f.source ≠ s.ac.setup.address →
      ∃ t, exec (.quietEvent 0) s = .next t ∧ t.re = { s.re with staging := none } ∧ t.freeBlocks = s.freeBlocks ∧
        t.peers = s.peers ∧ t.te = s.te ∧ OrderKept s t ∧ HostSideKept s t ∧
        (s.fu.deframer.bodyFailed = false →
          t.fu.framer = .answerDue { destination := f.source, code := .present, echo := 0 } (t.li.time + 2) ∧
          t.notices = s.notices) ∧
        (s.fu.deframer.bodyFailed = true → t.fu.framer = s.fu.framer ∧
          t.notices = addNotice (underRead s)
            { kind := .frameError, subject := some f.source, detail := some .body } s.notices)) ∧
  (∀ (s : State) (b : Burst) (f : FrameHeader), BurstMayEnd s b → b.isPartial = false → b.candidate = true →
      s.fu.deframer.phase = .tail → s.fu.deframer.tail = 2 → s.fu.deframer.header = some (.frame f) →
      f.kind = .dataAll → f.source ≠ s.ac.setup.address →
      let room := s.re.ring.length < 32 ∧ (f.length + 31) / 32 ≤ s.freeBlocks
      let dropped := s.fu.deframer.bodyFailed = true ∨ (peerEntry s f.source).gate = .closed
      ∃ t, exec (.quietEvent 0) s = .next t ∧ t.fu.framer = s.fu.framer ∧ t.peers = s.peers ∧ t.te = s.te ∧
        t.re.staging = none ∧ OrderKept s t ∧ HostSideKept s t ∧
        t.notices = (if s.fu.deframer.bodyFailed then
          addNotice (underRead s) { kind := .frameError, subject := some f.source, detail := some .body } s.notices
          else s.notices) ∧
        (dropped → t.re.ring = s.re.ring ∧ t.re.missed = s.re.missed ∧ t.freeBlocks = s.freeBlocks) ∧
        (¬dropped → ¬room →
          t.re.ring = s.re.ring ∧ t.re.missed = min 255 (s.re.missed + 1) ∧ t.freeBlocks = s.freeBlocks) ∧
        (¬dropped → room →
          t.re.ring = s.re.ring ++ [{
            source := f.source, kind := .all, sequence := none, length := f.length
            missed := s.re.missed, payload := ((s.re.staging.map (·.bytes)).getD []).take f.length }] ∧
          t.re.missed = 0 ∧ t.freeBlocks = s.freeBlocks - (f.length + 31) / 32)) ∧
  (∀ (s : State) (b : Burst) (h : Header), BurstMayEnd s b → b.isPartial = false → b.candidate = true →
      s.fu.deframer.phase = .tail → s.fu.deframer.tail = 2 → s.fu.deframer.header = some h →
      (∀ f, h = .frame f → f.source = s.ac.setup.address ∨ f.kind = .orderReset ∨
        ((f.kind = .dataDirect ∨ f.kind = .probe) ∧ f.destination ≠ s.ac.setup.address)) →
      let d := s.fu.deframer
      let body : OrderResetBody := { roster := (d.bodyBytes.getD 0 0).toNat, restart := decide (d.bodyBytes.getD 1 0 = 1) }
      let order := match h with
        | .frame f => if f.kind = .orderReset then some body else none
        | .answer _ => none
      ∃ t, exec (.quietEvent 0) s = .next t ∧ t.fu.framer = s.fu.framer ∧ t.fu.deframer = State.reset.fu.deframer ∧
        t.re = { s.re with staging := none } ∧ t.freeBlocks = s.freeBlocks ∧ t.peers = s.peers ∧ t.te = s.te ∧
        OrderKept s t ∧ HostSideKept s t ∧
        t.ac.tracker.access.report = (if s.ac.tracker.access.following
          then (if d.bodyFailed then .header h .body none else .header h .good order)
          else s.ac.tracker.access.report) ∧
        t.notices = (if d.bodyFailed then
          addNotice (underRead s) { kind := .frameError, subject := some h.source, detail := some .body } s.notices
          else s.notices))

/-- When the answer gap has run, the answer goes out: the framer is in ANSWER and the driver sends the answer's
symbols; an answer that finds the driver DRIVING is lost, and the framer is IDLE. A burst whose first bit time is the one
in which the driver begins is marked own, its active event taken already; one that began earlier is left as it is marked
(log 23). Model choices: logs 5, 23. -/
def Obligations.AnswerGoesOutAfterGap : Prop :=
  ∀ (s : State) (a : Answer) (due : Nat), s.fu.framer = .answerDue a due → s.li.sensing ≠ .off →
    ∃ t, exec .answerGapExpiry s = .next t ∧ t.li.time = max s.li.time due ∧
      t.fu.deframer = s.fu.deframer ∧ t.fu.window = s.fu.window ∧ OrderKept s t ∧ MessagesKept s t ∧
      (s.li.tx = none → t.fu.framer = .answer ∧
        t.li.tx = some { owner := .answer, symbols := answerSymbols s.ac.setup.address a, start := t.li.time } ∧
        (answerSymbols s.ac.setup.address a).length = 74 ∧
        ∀ b, s.li.burst = some b → ∃ b', t.li.burst = some b' ∧ b'.start = b.start ∧ b'.isPartial = b.isPartial ∧
          (b'.isOwn = true ↔ b.isOwn = true ∨ (b.start = t.li.time ∧ b.isPartial = false))) ∧
      (s.li.tx ≠ none → t.fu.framer = .idle ∧ t.li.tx = s.li.tx)

/-- The sender's judgement: the first foreign candidate that ends while the window is OPEN judges it: with the code
of an ANSWER that ended good, came from the window's destination, to this station, with the window's sequence and a
code that fits the kind, and as unanswered by any other. Model choices: log 17. -/
def Obligations.AnswerWindowIsJudged : Prop :=
  ∀ (s : State) (b : Burst) (kind : FrameKind) (destination : Nat) (sequence : Seq), BurstMayEnd s b →
    b.isPartial = false → b.candidate = true → b.isOwn = false →
    s.fu.window = .opened kind destination sequence true → ∃ t, exec (.quietEvent 0) s = .next t ∧
      (∀ a, s.fu.deframer.phase = .tail → s.fu.deframer.tail = 2 → s.fu.deframer.bodyFailed = false →
        s.fu.deframer.header = some (.answer a) → a.source = destination → a.destination = s.ac.setup.address →
        a.echo = sequence → (kind = .probe ↔ a.code = .present) →
        t.fu.window = .judged kind destination sequence (some a.code)) ∧
      ((s.fu.deframer.phase ≠ .tail ∨ s.fu.deframer.tail < 2 ∨ s.fu.deframer.bodyFailed = true ∨
        ∀ a, s.fu.deframer.header = some (.answer a) → a.source ≠ destination ∨ a.destination ≠ s.ac.setup.address ∨
          a.echo ≠ sequence ∨ ¬(kind = .probe ↔ a.code = .present)) →
        t.fu.window = .judged kind destination sequence none)

/-! ### Rounds, slots and the order list -/

/-- At the start of its own slot a station in RESYNC claims its address slot with an ORDER-RESET, and one ONLINE
with restart pending its order slot: the claim is MARKED and the mark goes out at once. At the start of its order
slot an ONLINE station without restart pending claims with the oldest eligible entry, which becomes IN-FLIGHT and,
for a DATA-DIRECT without a sequence, takes its destination's next send sequence; with no eligible entry nothing is
sent, and the round goes on. The own slot is the address slot in RESYNC, the order slot N + position in ONLINE, and none
in any other state; slot k starts k × S bit times after the round start (R37). A mark that begins in the first bit time
of a burst makes it own (R5), and one that begins later does not (log 23). A claim that still stands WITHDRAWN from an
earlier round gives way to the new one (log 26). Model choices: logs 5, 23, 25, 26. -/
def Obligations.SlotStartClaims : Prop :=
  (∀ s : State,
      (s.ac.station = .resync → ownSlot s = some s.ac.setup.address) ∧
      (s.ac.station = .online → ∀ front rest, s.ac.order = front ++ s.ac.setup.address :: rest →
        s.ac.setup.address ∉ front → ownSlot s = some (s.ac.setup.roster + front.length)) ∧
      (s.ac.station = .online → s.ac.setup.address ∉ s.ac.order → ownSlot s = none) ∧
      (s.ac.station ≠ .resync → s.ac.station ≠ .online → ownSlot s = none) ∧
      ∀ k start, s.ac.tracker.roundStart = some start → slotStartTime s k = start + k * s.ac.setup.slot) ∧
  (∀ (k : Nat) (s : State), ownSlot s = some k → s.ac.tracker.phase = .round → s.li.sensing = .quiet →
      s.ac.tracker.slotTaken = false → claimOpen s = false → s.li.tx = none →
      s.li.time ≤ slotStartTime s k →
      s.ac.station = .resync ∨ (s.ac.station = .online ∧ s.ac.restartPending = true) →
      ∃ t, exec .slotStart s = .next t ∧
        t.li = { s.li with
          time := slotStartTime s k
          tx := some { owner := .mark, symbols := [true, false, true, false], start := slotStartTime s k }
          stuckTimer := 0
          burst := s.li.burst.map (Burst.drivenFrom (slotStartTime s k)) } ∧
        t.ac.tracker.access.claim =
          some { slot := some k, content := .orderReset, progress := .marked, markedAt := slotStartTime s k } ∧
        t.ac.tracker.phase = .round ∧ OrderKept s t ∧ t.fu = s.fu ∧ MessagesKept s t) ∧
  (∀ (k : Nat) (s : State), ownSlot s = some k → s.ac.tracker.phase = .round → s.li.sensing = .quiet →
      s.ac.tracker.slotTaken = false → claimOpen s = false → s.li.tx = none →
      s.li.time ≤ slotStartTime s k → s.ac.station = .online → s.ac.restartPending = false →
      (∀ e, selectEntry s = some e → findEntry s e.tag = some e → ∃ t, exec .slotStart s = .next t ∧
        t.li.tx = some { owner := .mark, symbols := [true, false, true, false], start := slotStartTime s k } ∧
        t.ac.tracker.access.claim =
          some { slot := some k, content := .entry e.tag, progress := .marked, markedAt := slotStartTime s k } ∧
        t.te = { s.te with queue := s.te.queue.map fun x => if x.tag = e.tag then { x with
            state := .inFlight
            sequence := if x.frameKind = .dataDirect ∧ x.sequence = none
              then some (match e.destination with | .peer a => (peerEntry s a).nextSend | .all => 0) else x.sequence }
          else x } ∧
        OrderKept s t ∧ t.fu = s.fu ∧ t.peers = s.peers ∧ t.re = s.re ∧ t.freeBlocks = s.freeBlocks ∧
        t.notices = s.notices ∧ HostSideKept s t) ∧
      (selectEntry s = none → ∃ t, exec .slotStart s = .next t ∧ t.li.tx = none ∧
        t.ac.tracker.access = s.ac.tracker.access ∧ t.ac.tracker.phase = .round ∧ OrderKept s t ∧ t.fu = s.fu ∧
        MessagesKept s t))

/-- The entry selected is the oldest eligible one: WAITING, the oldest to its destination, and not held off; and
none is selected only when none is eligible. -/
def Obligations.SelectionTakesOldestEligible : Prop :=
  ∀ s : State,
    (∀ e, selectEntry s = some e ↔ ∃ older newer, s.te.queue = older ++ e :: newer ∧ e.state = .waiting ∧
      (∀ o ∈ older, o.destination ≠ e.destination) ∧
      (∀ a, e.destination = .peer a → (peerEntry s a).holdOff = none) ∧
      (∀ l x r, older = l ++ x :: r → x.state ≠ .waiting ∨ (∃ o ∈ l, o.destination = x.destination) ∨
        ∃ a, x.destination = .peer a ∧ (peerEntry s a).holdOff ≠ none)) ∧
    (selectEntry s = none ↔ ∀ l x r, s.te.queue = l ++ x :: r → x.state ≠ .waiting ∨
      (∃ o ∈ l, o.destination = x.destination) ∨ ∃ a, x.destination = .peer a ∧ (peerEntry s a).holdOff ≠ none)

/-- At the slot boundary after its mark a HELD claim sends its frame: the claim is SENT, the framer is in FRAME with
the request fixed at the mark, and the driver sends its symbols. A request that finds the framer or the driver busy
is a collision, with all that a collision of an own frame does to the claim, the entry, the count of address-slot
collisions and the station, and what is under way goes on. A frame lasts 82 bit times without a body and
82 + 8 × length + 16 with one. A burst whose first bit time is the one in which the driver begins is marked own, its active
event taken already; one that began earlier is left as it is marked (log 23). Model choices: logs 5, 23. -/
def Obligations.FrameStartSendsFrame : Prop :=
  (∀ (s : State) (c : OwnClaim) (r : FrameRequest), s.ac.tracker.access.claim = some c → c.progress = .held →
      s.li.sensing ≠ .off →
      (c.content = .orderReset → r = {
        kind := .orderReset, destination := 63, claimSlot := c.slot.getD 0, sequence := 0, length := 2
        payload := [toByte s.ac.setup.roster, if s.ac.restartPending then 1 else 0] }) →
      (∀ tag, c.content = .entry tag → ∃ e, findEntry s tag = some e ∧
        r = { kind := e.frameKind, destination := e.destination.address, claimSlot := c.slot.getD 0,
              sequence := if e.frameKind = .dataDirect then e.sequence.getD 0 else 0, length := e.length,
              payload := e.payload }) →
      c.content ≠ .wake →
      (s.fu.framer = .idle → s.li.tx = none → ∃ t, exec .frameStart s = .next t ∧
        t.li.time = max s.li.time (c.markedAt + s.ac.setup.slot) ∧
        t.li.tx = some { owner := .frame, symbols := frameSymbols s.ac.setup.address r, start := t.li.time } ∧
        t.fu = { s.fu with framer := .frame r } ∧
        t.ac.tracker.access.claim = some { c with progress := .sent } ∧ OrderKept s t ∧ MessagesKept s t ∧
        ∀ b, s.li.burst = some b → ∃ b', t.li.burst = some b' ∧ b'.start = b.start ∧ b'.isPartial = b.isPartial ∧
          (b'.isOwn = true ↔ b.isOwn = true ∨ (b.start = t.li.time ∧ b.isPartial = false))) ∧
      (s.fu.framer ≠ .idle ∨ s.li.tx ≠ none → s.ac.collisions ≤ 3 → ∃ t, exec .frameStart s = .next t ∧
        Collided c s t ∧ (t.ac.station ≠ .halted → t.fu = s.fu ∧ t.li.tx = s.li.tx) ∧ t.ac.order = s.ac.order ∧
        t.ac.setup = s.ac.setup ∧ t.ac.restartPending = s.ac.restartPending ∧ t.re.ring = s.re.ring ∧
        t.re.missed = s.re.missed ∧ HostSideKept s t)) ∧
  (∀ (source : Nat) (r : FrameRequest), r.payload.length = r.length →
      (frameSymbols source r).length = if r.length = 0 then 82 else 82 + 8 * r.length + 16)

/-- An unclaimed round ends: below 8 the next round starts at once at the bit time the old one ended; at 8 the phase
is REST, and a station with a need to send sends a wake mark at once. A LISTENING station that has seen no activity
for the rest-detect interval concludes REST: RESYNC, the unclaimed count at 8, the list kept, and a wake mark at
once. The need to send is RESYNC's always, and ONLINE's with restart pending or an eligible entry (R47). The access record
stays as it is at the end of a round and at the entry to REST, with a claim withdrawn in the round (R35), until a wake
takes the claim's place (log 26). Model choices: logs 5, 26. -/
def Obligations.QuietRoundsAndRestWake : Prop :=
  (∀ s : State, needToSend s = true ↔ s.ac.station = .resync ∨
      (s.ac.station = .online ∧ (s.ac.restartPending = true ∨ (selectEntry s).isSome = true))) ∧
  (∀ s : State, s.ac.tracker.phase = .round → s.li.sensing = .quiet → claimOpen s = false →
      s.li.tx = none → s.li.time ≤ slotStartTime s (2 * s.ac.setup.roster) →
      ∃ t, exec .roundEnd s = .next t ∧ t.li.time = slotStartTime s (2 * s.ac.setup.roster) ∧ OrderKept s t ∧
        t.fu = s.fu ∧ MessagesKept s t ∧
        (s.ac.tracker.unclaimed < 7 → t.ac.tracker.phase = .round ∧ t.li.tx = none ∧
          t.ac.tracker.roundStart = some (slotStartTime s (2 * s.ac.setup.roster)) ∧
          t.ac.tracker.unclaimed = s.ac.tracker.unclaimed + 1 ∧ t.ac.tracker.slotTaken = false ∧
          t.ac.tracker.access = s.ac.tracker.access) ∧
        (s.ac.tracker.unclaimed = 7 → t.ac.tracker.phase = .rest ∧ t.ac.tracker.unclaimed = 8 ∧
          (needToSend s = false → t.li.tx = none ∧ t.ac.tracker.access = s.ac.tracker.access) ∧
          (needToSend s = true →
            t.li.tx = some { owner := .mark, symbols := [true, false, true, false], start := t.li.time } ∧
            t.ac.tracker.access = { s.ac.tracker.access with
              claim := some { slot := none, content := .wake, progress := .wake, markedAt := t.li.time } }))) ∧
  (∀ s : State, s.ac.station = .listening → s.ac.tracker.phase = .unaligned → s.ac.tracker.activitySeen = false →
      s.li.sensing = .quiet → s.li.tx = none → claimOpen s = false →
      s.ac.tracker.restDetect ≤ 8 * (2 * s.ac.setup.roster) * s.ac.setup.slot + 16 →
      ∃ t, exec .restDetectExpiry s = .next t ∧ t.ac.station = .resync ∧ t.ac.tracker.phase = .rest ∧
        t.ac.tracker.unclaimed = 8 ∧
        t.ac.tracker.restDetect = 8 * (2 * s.ac.setup.roster) * s.ac.setup.slot + 16 ∧
        t.li.time = s.li.time + (8 * (2 * s.ac.setup.roster) * s.ac.setup.slot + 16 - s.ac.tracker.restDetect) ∧
        t.li.tx = some { owner := .mark, symbols := [true, false, true, false], start := t.li.time } ∧
        t.ac.tracker.access.claim =
          some { slot := none, content := .wake, progress := .wake, markedAt := t.li.time } ∧
        t.ac.order = s.ac.order ∧ t.ac.restartPending = s.ac.restartPending ∧ t.ac.setup = s.ac.setup ∧
        t.ac.collisions = s.ac.collisions ∧ t.fu = s.fu ∧ MessagesKept s t)

/-- A hold-off expires at its time: it becomes absent, and no other field of any entry changes. So it is during an own
mark, frame or open claim too. Outside REST, and without a need to send, nothing follows; in REST a station with a need
to send sends a wake mark at once. While the time base is stopped none expires. Model choices: log 5. -/
def Obligations.HoldOffExpires : Prop :=
  ∀ (a expiry : Nat) (s : State), a < 32 →
    ((peerEntry s a).holdOff = some (.running expiry) → s.li.sensing ≠ .off → ∃ t, exec (.holdOffExpiry a) s = .next t ∧
      t.li.time = max s.li.time expiry ∧
      t.peers = s.peers.setIfInBounds a { peerEntry s a with holdOff := none } ∧
      t.te = s.te ∧ t.re = s.re ∧ t.freeBlocks = s.freeBlocks ∧ t.notices = s.notices ∧ t.fu = s.fu ∧ OrderKept s t ∧
      HostSideKept s t ∧
      t.ac.tracker.phase = s.ac.tracker.phase ∧
      (s.ac.tracker.phase ≠ .rest ∨ needToSend t = false →
        t.li.tx = s.li.tx ∧ t.ac.tracker.access = s.ac.tracker.access) ∧
      (s.ac.tracker.phase = .rest → needToSend t = true → s.li.tx = none → claimOpen s = false →
        t.li.tx = some { owner := .mark, symbols := [true, false, true, false], start := t.li.time } ∧
        t.ac.tracker.access = { s.ac.tracker.access with
          claim := some { slot := none, content := .wake, progress := .wake, markedAt := t.li.time } })) ∧
    (s.li.sensing = .off → exec (.holdOffExpiry a) s = .next s)

/-- The two changes of the list (R55): rotation moves an address to the end and leaves the others in their order,
leaves the list as it was for the address at the end, and keeps each address present exactly once; a reset to
ascending gives 0 to N−1, and an applied ORDER-RESET is that reset followed by a rotation of its sender. An access
end changes the list by one of the two or not at all. -/
def Obligations.RotationAndReset : Prop :=
  (∀ (a : Nat) (l r : List Nat), a ∉ l → rotate a (l ++ a :: r) = l ++ r ++ [a]) ∧
  (∀ (a : Nat) (l : List Nat), a ∉ l → rotate a (l ++ [a]) = l ++ [a]) ∧
  (∀ (a : Nat) (l : List Nat), (rotate a l).Perm l ∧ (rotate a l).length = l.length) ∧
  (∀ (h : FrameHeader) (body : OrderResetBody) (s : State),
    (applyOrderReset h body s).ac.order = rotate h.source (List.range s.ac.setup.roster)) ∧
  (∀ s : State, rotate 0 [2, 0, 3, 1] = [2, 3, 1, 0] ∧
    (s.ac.setup.roster = 4 → (resetOrder 3 s).ac.order = [0, 1, 2, 3] ∧ (resetOrder 1 s).ac.order = [0, 2, 3, 1])) ∧
  (∀ s t : State, exec .guardComplete s = .next t →
    t.ac.order = s.ac.order ∨ (∃ a, t.ac.order = rotate a s.ac.order) ∨
    ∃ a, t.ac.order = rotate a (List.range s.ac.setup.roster))

/-- The guard completes in ACCESS or aligns an UNALIGNED station: unless the station leaves or halts, ROUND(0)
starts at the bit time at which the quiet interval reached 16, with an empty access record, and the answer window is
CLOSED. A GUARD_COMPLETE taken while the quiet interval stands below 16 lets the bit times pass up to it (log 5).
Model choices: logs 5, 16. -/
def Obligations.GuardStartsRound : Prop :=
  ∀ (n : Nat) (s : State), GuardDue n s → ∃ t, exec .guardComplete s = .next t ∧ HostSideKept s t ∧
    t.li.time = s.li.time + (16 - n) ∧ t.fu.window = .closed ∧ t.ac.setup = s.ac.setup ∧ t.re.ring = s.re.ring ∧
    t.re.missed = s.re.missed ∧ t.choice = s.choice ∧
    (t.ac.station = .listening ∨ t.ac.station = .resync ∨ t.ac.station = .online ∨ t.ac.station = .leaving →
      t.ac.tracker.phase = .round ∧ t.ac.tracker.roundStart = some t.li.time ∧ t.ac.tracker.guard = none ∧
      t.ac.tracker.slotTaken = false ∧ t.ac.tracker.access = AccessRecord.empty ∧
      t.ac.tracker.unclaimed = s.ac.tracker.unclaimed) ∧
    (t.ac.station = .offline ∨ t.ac.station = .halted → s.ac.station ≠ .offline → s.ac.station ≠ .halted →
      t.ac.tracker = State.reset.ac.tracker ∧ t.li.sensing = .off)

/-- The access end in ONLINE takes the first case that applies: a collision gives RESYNC; a header with the own
address halts; an own frame rotates or resets the list; a good ORDER-RESET of the same roster size is applied, and a
restart-bearing one sets its sender's last accepted sequence to NONE, the one change of the Peer Table (R65, R95); one of
another size is reported and changes no peer (R66), a damaged one gives RESYNC; a verified header rotates its source and
any other gives RESYNC; an answer is placed by the mark slot; an unreadable frame rotates the owner of the observed order
slot; a void access changes nothing. Model choices: logs 5, 16, 21. -/
def Obligations.OnlineAccessEnd : Prop :=
  ∀ (n : Nat) (s : State), GuardDue n s → s.ac.station = .online → ∃ t, exec .guardComplete s = .next t ∧
    (let a := s.ac.tracker.access
     let before := (takeOutcome (passTime (16 - n) s)).notices
     let progress := a.claim.map (·.progress)
     let own := a.report.source = some s.ac.setup.address
     let owner := match a.observed with
       | some k => if s.ac.setup.roster ≤ k then s.ac.order[k - s.ac.setup.roster]? else none
       | none => none
     let raised := fun (kind : NoticeKind) (subject : Option Nat) =>
       t.notices = addNotice (underRead s) { kind := kind, subject := subject, detail := none } before
     let diverges := fun (subject : Option Nat) =>
       t.ac.station = .resync ∧ t.ac.order = s.ac.order ∧ raised .orderDiverged subject
     let rotates := fun (x : Nat) => t.ac.station = .online ∧ t.ac.order = rotate x s.ac.order ∧ t.notices = before
     let kept := t.ac.restartPending = s.ac.restartPending ∧ t.ac.collisions = s.ac.collisions
     kept ∧
     (progress = some .mismatched → t.ac.station = .resync ∧ t.ac.order = s.ac.order ∧ t.notices = before) ∧
     (progress ≠ some .mismatched → own →
       t.ac.station = .halted ∧ t.ac.order = s.ac.order ∧ raised .addressConflict (some s.ac.setup.address)) ∧
     (progress = some .passed → ¬own → ∀ c, a.claim = some c →
       (∀ tag, c.content = .entry tag → rotates s.ac.setup.address) ∧
       (c.content = .orderReset → t.ac.station = .online ∧ t.notices = before ∧
         t.ac.order = rotate s.ac.setup.address (List.range s.ac.setup.roster))) ∧
     (progress ≠ some .mismatched → progress ≠ some .passed → ¬own →
       (∀ h e b, a.report = .header (.frame h) e b → h.kind = .orderReset →
         (∀ body, e = .good → b = some body → body.roster = s.ac.setup.roster →
           t.ac.station = .online ∧ t.ac.order = rotate h.source (List.range s.ac.setup.roster) ∧
           t.peers = (if body.restart = true
             then s.peers.setIfInBounds h.source { peerEntry s h.source with lastAccepted := none } else s.peers) ∧
           raised .orderResetSeen (some h.source)) ∧
         (∀ body, e = .good → b = some body → body.roster ≠ s.ac.setup.roster →
           t.ac.station = .online ∧ t.ac.order = s.ac.order ∧ t.peers = s.peers ∧
           raised .rosterMismatch (some h.source)) ∧
         (e ≠ .good → diverges (some h.source))) ∧
       (∀ h e b, a.report = .header (.frame h) e b → h.kind ≠ .orderReset →
         ((a.observed = none ∨ a.observed = some h.claimSlot) →
           s.ac.order[h.claimSlot - s.ac.setup.roster]? = some h.source → rotates h.source) ∧
         (¬(a.observed = none ∨ a.observed = some h.claimSlot) ∨
           s.ac.order[h.claimSlot - s.ac.setup.roster]? ≠ some h.source → diverges (some h.source))) ∧
       (∀ h e b, a.report = .header (.answer h) e b →
         (owner = some h.destination → rotates h.destination) ∧
         (owner ≠ some h.destination → owner ≠ none → diverges (some h.destination)) ∧
         (owner = none → diverges none)) ∧
       (a.report = .headerInvalid ∨ a.report = .truncated →
         (∀ x, owner = some x → rotates x) ∧ (owner = none → diverges none)) ∧
       (a.report = .absent → t.ac.station = .online ∧ t.ac.order = s.ac.order ∧ t.notices = before)))

/-- The access end in RESYNC and at a LISTENING station: only an own ORDER-RESET that passed (in RESYNC) or a good
foreign one of the same roster size changes the list, and takes the station ONLINE; a restart-bearing one clears the
sender's last accepted sequence; every other access leaves the list, with RESYNC as the state; the own address as a
source halts. The notices are ADDRESS-CONFLICT for the own address, ORDER-RESET-SEEN for a foreign ORDER-RESET that is
applied and ROSTER-MISMATCH for one of another roster size, and none for any other access, ORDER-DIVERGED least of
all. The access end of a LEAVING station leaves the list, raises no notice about it, and takes it to OFFLINE with its
queue flushed and restart pending clear, or to HALTED on an address conflict. Model choices: logs 5, 16, 21. -/
def Obligations.RepairAndLeavingAccessEnds : Prop :=
  (∀ (n : Nat) (s : State), GuardDue n s → s.ac.station = .resync ∨ s.ac.station = .listening →
      ∃ t, exec .guardComplete s = .next t ∧
      (let a := s.ac.tracker.access
       let progress := a.claim.map (·.progress)
       let own := a.report.source = some s.ac.setup.address
       let mismatched := s.ac.station = .resync ∧ progress = some .mismatched
       let ownReset := s.ac.station = .resync ∧ progress = some .passed ∧ a.claim.map (·.content) = some .orderReset
       let good := ∃ h body, a.report = .header (.frame h) .good (some body) ∧ body.roster = s.ac.setup.roster
       let before := (takeOutcome (passTime (16 - n) s)).notices
       let raised := fun (kind : NoticeKind) (subject : Nat) =>
         t.notices = addNotice (underRead s) { kind := kind, subject := some subject, detail := none } before
       (mismatched → t.ac.station = .resync ∧ t.ac.order = s.ac.order ∧ t.notices = before) ∧
       (¬mismatched → own →
         t.ac.station = .halted ∧ t.ac.order = s.ac.order ∧ raised .addressConflict s.ac.setup.address) ∧
       (ownReset → ¬own → t.ac.station = .online ∧
         t.ac.order = rotate s.ac.setup.address (List.range s.ac.setup.roster) ∧ t.notices = before) ∧
       (¬mismatched → ¬own → ¬ownReset →
         (∀ h body, a.report = .header (.frame h) .good (some body) → body.roster = s.ac.setup.roster →
           t.ac.station = .online ∧ t.ac.order = rotate h.source (List.range s.ac.setup.roster) ∧
           (body.restart = true → h.source < 32 → (peerEntry t h.source).lastAccepted = none) ∧
           raised .orderResetSeen h.source) ∧
         (∀ h body, a.report = .header (.frame h) .good (some body) → body.roster ≠ s.ac.setup.roster →
           raised .rosterMismatch h.source) ∧
         (¬good → t.ac.station = .resync ∧ t.ac.order = s.ac.order) ∧
         ((∀ h body, a.report ≠ .header (.frame h) .good (some body)) → t.notices = before)))) ∧
  (∀ (n : Nat) (s : State), GuardDue n s → s.ac.station = .leaving → ∃ t, exec .guardComplete s = .next t ∧
      t.ac.order = s.ac.order ∧ t.ac.collisions = s.ac.collisions ∧ t.li.sensing = .off ∧ t.li.tx = none ∧
      (let conflict := s.ac.tracker.access.claim.map (·.progress) ≠ some .mismatched ∧
         s.ac.tracker.access.report.source = some s.ac.setup.address
       let before := (takeOutcome (passTime (16 - n) s)).notices
       (conflict → t.ac.station = .halted ∧ t.ac.restartPending = s.ac.restartPending ∧
         t.notices = addNotice (underRead s)
           { kind := .addressConflict, subject := some s.ac.setup.address, detail := none } before) ∧
       (¬conflict → t.ac.station = .offline ∧ t.te.queue = [] ∧ t.ac.restartPending = false ∧ t.notices = before)))

/-! ### Delivery -/

/-- The outcome of an attempt whose frame passed: what the answer, or its absence, does to the entry. DATA-ALL
finishes SENT; ACCEPTED and DUPLICATE finish DELIVERED, the latter with the note; PRESENT finishes PRESENT; CLOSED
finishes REFUSED; FULL and CHECK-FAIL finish FULL and UNANSWERED at the retry limit; an unanswered attempt finishes
UNANSWERED at the limit or when the peer is SILENT after it; otherwise the entry returns to WAITING, or finishes
CANCELLED if a cancel is pending. So it is at the access end and at the stuck event, in every station state; a
LEAVING station that goes to OFFLINE there then flushes what is left of the queue, WITHDRAWN, behind the attempt's own
record (R45, R83, R116, R123). Model choices: logs 5, 21. -/
def Obligations.AttemptOutcome : Prop :=
  ∀ (s : State) (c : OwnClaim) (tag : Tag) (e : TxEntry), TagsDistinct s → PeersSound s →
    s.ac.tracker.access.claim = some c → c.progress = .passed → c.content = .entry tag → findEntry s tag = some e →
    (∀ a, e.destination = .peer a → a < 32) →
    let judged := s.fu.window.judgement
    let atLimit := s.ac.setup.retry ≤ e.attempts
    let answer := match e.destination, judged with
      | .peer _, some code => some code
      | _, _ => e.lastAnswer
    let ended : Option (MessageOutcome × Bool) := match e.destination with
      | .all => some (.sent, false)
      | .peer a => match judged with
        | some .accepted => some (.delivered, false)
        | some .duplicate => some (.delivered, true)
        | some .present => some (.present, false)
        | some .closed => some (.refused, false)
        | some .full => if atLimit then some (.full, false) else none
        | some .checkFail => if atLimit then some (.unanswered, false) else none
        | none => if atLimit ∨ 2 ≤ (peerEntry s a).unanswered ∨ (peerEntry s a).presence = .silent
            then some (.unanswered, false) else none
    let result := if ended = none ∧ e.cancelPending = true then some (.cancelled, false) else ended
    let settled := fun (t : State) => match result with
      | some (outcome, note) => Finished e outcome note answer s t
      | none => BackToWaiting e answer s t
    let left : List TxEntry := match result with
      | some _ => s.te.queue.eraseP (·.tag == e.tag)
      | none => s.te.queue.map fun x => if x.tag == e.tag then { x with lastAnswer := answer } else x
    let own : List Completion := match result with
      | some (outcome, note) => [{ e.withdrawn with outcome := outcome, duplicateNote := note, lastAnswer := answer }]
      | none => []
    let flushed := fun (t : State) => t.ac.station = .offline ∧
      t.te = { queue := [], completions := s.te.completions ++ own ++ left.map TxEntry.withdrawn } ∧
      t.freeBlocks = s.freeBlocks + (s.te.queue.map fun x => (x.length + 31) / 32).sum
    let joined := s.ac.station = .online ∨ s.ac.station = .resync ∨ s.ac.station = .listening
    (∀ n, GuardDue n s → ∃ t, exec .guardComplete s = .next t ∧ (joined → settled t) ∧
      (s.ac.station = .leaving → s.ac.tracker.access.report.source = some s.ac.setup.address →
        t.ac.station = .halted ∧ settled t) ∧
      (s.ac.station = .leaving → s.ac.tracker.access.report.source ≠ some s.ac.setup.address → flushed t)) ∧
    (s.li.sensing = .active → s.li.tx = none → ∃ t, exec .stuck s = .next t ∧ (joined → settled t) ∧
      (s.ac.station = .leaving → flushed t))

/-- What the outcome of a unicast attempt does to the peer's entry: an answer makes the unanswered count 0, FULL
sets the hold-off H × 256 bit times ahead, an unanswered attempt adds 1 up to 3, the third makes the peer SILENT
with PEER-SILENT, and a finishing entry that holds a sequence advances the next send sequence. Peers other than the
destination are unchanged. The outcome of a passed claim is taken so at the access end and at the stuck event, with the
hold-off counted from that event (R91, R98, R114, R116). Where sensing ends there, every hold-off keeps its remaining time
(R100); a LEAVING station that goes to OFFLINE advances the sequences of all the entries it flushes (R123). The order of
PEER-SILENT and LINE-STUCK is a free value (log 8). Model choices: logs 5, 8, 21. -/
def Obligations.AttemptUpdatesPeer : Prop :=
  (∀ (s : State) (tag : Tag) (e : TxEntry) (a : Nat) (judged : Option AnswerCode), findEntry s tag = some e →
     e.destination = .peer a → a < 32 →
     let p := peerEntry s a
     let t := applyOutcome tag judged s
     let q := peerEntry t a
     let finished := t.te.queue.length < s.te.queue.length
     (∀ x, x ≠ a → peerEntry t x = peerEntry s x) ∧
     q.gate = p.gate ∧ q.lastAccepted = p.lastAccepted ∧
     q.nextSend = p.nextSend + (if finished ∧ e.sequence ≠ none then 1 else 0) ∧
     (judged ≠ none → q.unanswered = 0 ∧ q.presence = p.presence ∧ t.notices = s.notices) ∧
     (judged = some .full → q.holdOff = some (.running (s.li.time + s.ac.setup.holdOff * 256))) ∧
     (judged ≠ some .full → q.holdOff = p.holdOff) ∧
     (judged = none → q.unanswered = min 3 (p.unanswered + 1) ∧
       (p.unanswered = 2 ∧ p.presence ≠ .silent → q.presence = .silent ∧
         t.notices = addNotice (underRead s) { kind := .peerSilent, subject := some a, detail := none } s.notices) ∧
       (¬(p.unanswered = 2 ∧ p.presence ≠ .silent) → q.presence = p.presence ∧ t.notices = s.notices))) ∧
  (∀ (s : State) (c : OwnClaim) (tag : Tag) (e : TxEntry) (a : Nat), s.ac.tracker.access.claim = some c →
    c.progress = .passed → c.content = .entry tag → findEntry s tag = some e → e.destination = .peer a → a < 32 →
    let p := peerEntry s a
    let judged := s.fu.window.judgement
    let silenced := judged = none ∧ p.unanswered = 2 ∧ p.presence ≠ .silent
    let outcome := fun (now : Nat) (t : State) (x : Nat) => if x ≠ a then peerEntry s x else { p with
      unanswered := if judged = none then min 3 (p.unanswered + 1) else 0
      presence := if silenced then .silent else p.presence
      holdOff := if judged = some .full then some (.running (now + s.ac.setup.holdOff * 256)) else p.holdOff
      nextSend := p.nextSend + (if t.te.queue.length < s.te.queue.length ∧ e.sequence ≠ none then 1 else 0) }
    let frozen := fun (now : Nat) (q : PeerEntry) => { q with holdOff := match q.holdOff with
      | some (.running expiry) => some (.frozen (expiry - now))
      | other => other }
    let flushed := fun (now : Nat) (t : State) (x : Nat) => { frozen now (outcome now t x) with
      nextSend := (peerEntry s x).nextSend
        + BitVec.ofNat 4 (s.te.queue.countP fun y => y.destination = .peer x ∧ y.sequence ≠ none) }
    let silence : Notice := { kind := .peerSilent, subject := some a, detail := none }
    let stuckLine : Notice := { kind := .lineStuck, subject := none, detail := none }
    let own := s.ac.tracker.access.report.source = some s.ac.setup.address
    let joined := s.ac.station = .online ∨ s.ac.station = .resync ∨ s.ac.station = .listening
    (∀ k, (takeOutcome (passTime k s)).notices = if silenced then addNotice (underRead s) silence s.notices else s.notices) ∧
    (∀ n, GuardDue n s → ∃ t, exec .guardComplete s = .next t ∧
      (let now := s.li.time + (16 - n)
       (joined → ¬own → ∀ x, { peerEntry t x with lastAccepted := (peerEntry s x).lastAccepted } = outcome now t x) ∧
       (s.ac.station = .online → ¬own → ∀ x, (peerEntry t x).lastAccepted = (peerEntry s x).lastAccepted) ∧
       (joined ∨ s.ac.station = .leaving → own → ∀ x, peerEntry t x = frozen now (outcome now t x)) ∧
       (s.ac.station = .leaving → ¬own → ∀ x, x < 32 → peerEntry t x = flushed now t x))) ∧
    (s.li.sensing = .active → s.li.tx = none → ∃ t, exec .stuck s = .next t ∧
      (let now := s.li.time + (4096 - s.li.stuckTimer)
       (joined → ∀ x, peerEntry t x = outcome now t x) ∧
       (s.ac.station = .leaving → ∀ x, x < 32 → peerEntry t x = flushed now t x) ∧
       (¬silenced → t.notices = addNotice (underRead s) stuckLine s.notices) ∧
       (silenced →
         t.notices = addNotice (underRead s) stuckLine (addNotice (underRead s) silence s.notices) ∨
         t.notices = addNotice (underRead s) silence (addNotice (underRead s) stuckLine s.notices)))))

/-- Finishing (R117, R94): whatever the outcome, the entry leaves the queue, its blocks return, the next send
sequence of the destination of a DATA-DIRECT that holds a sequence goes on by 1, modulo 16, and the completion
record joins the newest end. -/
def Obligations.FinishingReturnsBlocksAndAdvances : Prop :=
  ∀ (s : State) (tag : Tag) (e : TxEntry) (outcome : MessageOutcome) (note : Bool), findEntry s tag = some e →
    let t := finishEntry tag outcome note s
    Finished e outcome note e.lastAnswer s t ∧
    (∀ a q, e.destination = .peer a → e.sequence = some q → a < 32 →
      peerEntry t a = { peerEntry s a with nextSend := (peerEntry s a).nextSend + 1 } ∧
      ((peerEntry s a).nextSend = 15 → (peerEntry t a).nextSend = 0)) ∧
    (∀ x, (e.destination ≠ .peer x ∨ e.sequence = none) → peerEntry t x = peerEntry s x) ∧
    t.ac = s.ac ∧ t.li = s.li ∧ t.fu = s.fu ∧ t.re = s.re ∧ t.notices = s.notices ∧ t.hp = s.hp

/-! ### Notices -/

/-- Adding a notice (R175, with the exception of R177): it folds into a matching newest record, unless that record
is under read; otherwise it is appended while there is room; otherwise it is discarded and counted in the newest
record. Both counts stay at 255, and there are never more than 16 records. A record is under read exactly between
the decision point of a TAKE-NOTICE and SEL high with reply OK, and a notice is raised with that taken into account. -/
def Obligations.NoticeFoldsAppendsOrCounts : Prop :=
  (∀ s : State, underRead s = true ↔
    s.hp.transaction = .decided ∧ s.hp.command = some .takeNotice ∧ s.hp.stream.map (·.reply) = some .ok) ∧
  (∀ (kind : NoticeKind) (subject : Option Nat) (detail : Option ErrorKind) (s : State), raise kind subject detail s =
    { s with notices := addNotice (underRead s) { kind := kind, subject := subject, detail := detail } s.notices }) ∧
  (∀ (reading : Bool) (n : Notice) (q : List NoticeRecord),
    (∀ front r, q = front ++ [r] → r.notice = n → ¬(reading = true ∧ front = []) →
      addNotice reading n q = front ++ [{ r with repeats := min 255 (r.repeats + 1) }]) ∧
    ((∀ front r, q = front ++ [r] → r.notice ≠ n ∨ (reading = true ∧ front = [])) → q.length < 16 →
      addNotice reading n q = q ++ [{ notice := n, repeats := 0, lostAfter := 0 }]) ∧
    (∀ front r, q = front ++ [r] → r.notice ≠ n → q.length = 16 →
      addNotice reading n q = front ++ [{ r with lostAfter := min 255 (r.lostAfter + 1) }]) ∧
    (q.length ≤ 16 → (addNotice reading n q).length ≤ 16) ∧
    ((∀ r ∈ q, r.repeats ≤ 255 ∧ r.lostAfter ≤ 255) →
      ∀ r ∈ addNotice reading n q, r.repeats ≤ 255 ∧ r.lostAfter ≤ 255))

/-! ### Laws that every step keeps -/

/-- Every invariant of the laws holds at reset. -/
def Obligations.InvariantsHoldAtReset : Prop :=
  PoolSound State.reset ∧ CapacityKept State.reset ∧ CountsKept State.reset ∧ TagsDistinct State.reset ∧
    OrderFormed State.reset ∧ SilenceSound State.reset ∧ HoldOffsStopped State.reset ∧ InFlightClaimed State.reset ∧
    ResetHolds State.reset ∧ TimersKept State.reset ∧ OfflineQueueEmpty State.reset ∧ PeersSound State.reset ∧
    DeframerFollowsCandidate State.reset

/-- The conservation law and the reserve: free blocks and the blocks of entries, records and the reservation add up
to 192, and the transmit side holds at most 176. Model choices: log 11. -/
def Obligations.StepsConserveBlocks : Prop :=
  ∀ s t : State, PoolSound s → step s = .next t → PoolSound t

/-- The capacities of the collections: at most 32 entries, records and open SUBMIT together, 32 receive records, 16
notices. The saturating counts stay in their ranges, and a peer whose unanswered count stands at 3 is SILENT. The
deframer is out of QUIET only while a frame candidate is under way that is not marked partial. -/
def Obligations.StepsKeepCapacitiesAndCounts : Prop :=
  (∀ s t : State, CapacityKept s → step s = .next t → CapacityKept t) ∧
  (∀ s t : State, CountsKept s ∧ TimersKept s ∧ PeersSound s → step s = .next t →
      CountsKept t ∧ TimersKept t ∧ PeersSound t) ∧
  (∀ s t : State, DeframerFollowsCandidate s → step s = .next t → DeframerFollowsCandidate t)

/-- No two of the entries, the completion records and the open SUBMIT carry the same tag. -/
def Obligations.StepsKeepTagsDistinct : Prop :=
  ∀ s t : State, TagsDistinct s → step s = .next t → TagsDistinct t

/-- The order list is empty or holds each address from 0 to N−1 exactly once. -/
def Obligations.StepsKeepOrderFormed : Prop :=
  ∀ s t : State, OrderFormed s → step s = .next t → OrderFormed t

/-- The LI is OFF in OFFLINE and HALTED and in no other state, with every line-side block at its first values and no
hold-off running; in OFFLINE the transmit queue is empty; a held reset takes no transaction. -/
def Obligations.StepsKeepSilence : Prop :=
  ∀ s t : State, SilenceSound s ∧ HoldOffsStopped s ∧ OfflineQueueEmpty s ∧ ResetHolds s → step s = .next t →
    SilenceSound t ∧ HoldOffsStopped t ∧ OfflineQueueEmpty t ∧ ResetHolds t

/-- An entry is IN-FLIGHT only while it is the content of an own claim that holds the access; so at most one is. -/
def Obligations.StepsKeepInFlightClaimed : Prop :=
  ∀ s t : State, SilenceSound s ∧ OfflineQueueEmpty s ∧ TagsDistinct s ∧ InFlightClaimed s → step s = .next t →
    InFlightClaimed t ∧ (inFlightEntries t).length ≤ 1
end

