-- ==== Sys2Proof/Laws/State.lean ====
section
/-! SUPPORT. What each update of one block changes and what it leaves: one lemma per field and update, so that no proof
unfolds a record update. -/

namespace Sys2Proof.Machine

section
variable (f : LineInterface → LineInterface) (s : State)
@[simp] theorem onLi_li : (onLi f s).li = f s.li := rfl
@[simp] theorem onLi_fu : (onLi f s).fu = s.fu := rfl
@[simp] theorem onLi_ac : (onLi f s).ac = s.ac := rfl
@[simp] theorem onLi_peers : (onLi f s).peers = s.peers := rfl
@[simp] theorem onLi_te : (onLi f s).te = s.te := rfl
@[simp] theorem onLi_re : (onLi f s).re = s.re := rfl
@[simp] theorem onLi_freeBlocks : (onLi f s).freeBlocks = s.freeBlocks := rfl
@[simp] theorem onLi_hp : (onLi f s).hp = s.hp := rfl
@[simp] theorem onLi_notices : (onLi f s).notices = s.notices := rfl
@[simp] theorem onLi_resetHeld : (onLi f s).resetHeld = s.resetHeld := rfl
@[simp] theorem onLi_choice : (onLi f s).choice = s.choice := rfl
@[simp] theorem onLi_pending : (onLi f s).pending = s.pending := rfl
end

section
variable (f : FrameUnit → FrameUnit) (s : State)
@[simp] theorem onFu_li : (onFu f s).li = s.li := rfl
@[simp] theorem onFu_fu : (onFu f s).fu = f s.fu := rfl
@[simp] theorem onFu_ac : (onFu f s).ac = s.ac := rfl
@[simp] theorem onFu_peers : (onFu f s).peers = s.peers := rfl
@[simp] theorem onFu_te : (onFu f s).te = s.te := rfl
@[simp] theorem onFu_re : (onFu f s).re = s.re := rfl
@[simp] theorem onFu_freeBlocks : (onFu f s).freeBlocks = s.freeBlocks := rfl
@[simp] theorem onFu_hp : (onFu f s).hp = s.hp := rfl
@[simp] theorem onFu_notices : (onFu f s).notices = s.notices := rfl
@[simp] theorem onFu_resetHeld : (onFu f s).resetHeld = s.resetHeld := rfl
@[simp] theorem onFu_choice : (onFu f s).choice = s.choice := rfl
@[simp] theorem onFu_pending : (onFu f s).pending = s.pending := rfl
end

section
variable (f : AccessController → AccessController) (s : State)
@[simp] theorem onAc_li : (onAc f s).li = s.li := rfl
@[simp] theorem onAc_fu : (onAc f s).fu = s.fu := rfl
@[simp] theorem onAc_ac : (onAc f s).ac = f s.ac := rfl
@[simp] theorem onAc_peers : (onAc f s).peers = s.peers := rfl
@[simp] theorem onAc_te : (onAc f s).te = s.te := rfl
@[simp] theorem onAc_re : (onAc f s).re = s.re := rfl
@[simp] theorem onAc_freeBlocks : (onAc f s).freeBlocks = s.freeBlocks := rfl
@[simp] theorem onAc_hp : (onAc f s).hp = s.hp := rfl
@[simp] theorem onAc_notices : (onAc f s).notices = s.notices := rfl
@[simp] theorem onAc_resetHeld : (onAc f s).resetHeld = s.resetHeld := rfl
@[simp] theorem onAc_choice : (onAc f s).choice = s.choice := rfl
@[simp] theorem onAc_pending : (onAc f s).pending = s.pending := rfl
end

section
variable (f : Vector PeerEntry 32 → Vector PeerEntry 32) (s : State)
@[simp] theorem onPeers_li : (onPeers f s).li = s.li := rfl
@[simp] theorem onPeers_fu : (onPeers f s).fu = s.fu := rfl
@[simp] theorem onPeers_ac : (onPeers f s).ac = s.ac := rfl
@[simp] theorem onPeers_peers : (onPeers f s).peers = f s.peers := rfl
@[simp] theorem onPeers_te : (onPeers f s).te = s.te := rfl
@[simp] theorem onPeers_re : (onPeers f s).re = s.re := rfl
@[simp] theorem onPeers_freeBlocks : (onPeers f s).freeBlocks = s.freeBlocks := rfl
@[simp] theorem onPeers_hp : (onPeers f s).hp = s.hp := rfl
@[simp] theorem onPeers_notices : (onPeers f s).notices = s.notices := rfl
@[simp] theorem onPeers_resetHeld : (onPeers f s).resetHeld = s.resetHeld := rfl
@[simp] theorem onPeers_choice : (onPeers f s).choice = s.choice := rfl
@[simp] theorem onPeers_pending : (onPeers f s).pending = s.pending := rfl
end

section
variable (f : TransmitEngine → TransmitEngine) (s : State)
@[simp] theorem onTe_li : (onTe f s).li = s.li := rfl
@[simp] theorem onTe_fu : (onTe f s).fu = s.fu := rfl
@[simp] theorem onTe_ac : (onTe f s).ac = s.ac := rfl
@[simp] theorem onTe_peers : (onTe f s).peers = s.peers := rfl
@[simp] theorem onTe_te : (onTe f s).te = f s.te := rfl
@[simp] theorem onTe_re : (onTe f s).re = s.re := rfl
@[simp] theorem onTe_freeBlocks : (onTe f s).freeBlocks = s.freeBlocks := rfl
@[simp] theorem onTe_hp : (onTe f s).hp = s.hp := rfl
@[simp] theorem onTe_notices : (onTe f s).notices = s.notices := rfl
@[simp] theorem onTe_resetHeld : (onTe f s).resetHeld = s.resetHeld := rfl
@[simp] theorem onTe_choice : (onTe f s).choice = s.choice := rfl
@[simp] theorem onTe_pending : (onTe f s).pending = s.pending := rfl
end

section
variable (f : ReceiveEngine → ReceiveEngine) (s : State)
@[simp] theorem onRe_li : (onRe f s).li = s.li := rfl
@[simp] theorem onRe_fu : (onRe f s).fu = s.fu := rfl
@[simp] theorem onRe_ac : (onRe f s).ac = s.ac := rfl
@[simp] theorem onRe_peers : (onRe f s).peers = s.peers := rfl
@[simp] theorem onRe_te : (onRe f s).te = s.te := rfl
@[simp] theorem onRe_re : (onRe f s).re = f s.re := rfl
@[simp] theorem onRe_freeBlocks : (onRe f s).freeBlocks = s.freeBlocks := rfl
@[simp] theorem onRe_hp : (onRe f s).hp = s.hp := rfl
@[simp] theorem onRe_notices : (onRe f s).notices = s.notices := rfl
@[simp] theorem onRe_resetHeld : (onRe f s).resetHeld = s.resetHeld := rfl
@[simp] theorem onRe_choice : (onRe f s).choice = s.choice := rfl
@[simp] theorem onRe_pending : (onRe f s).pending = s.pending := rfl
end

section
variable (f : Nat → Nat) (s : State)
@[simp] theorem onFree_li : (onFree f s).li = s.li := rfl
@[simp] theorem onFree_fu : (onFree f s).fu = s.fu := rfl
@[simp] theorem onFree_ac : (onFree f s).ac = s.ac := rfl
@[simp] theorem onFree_peers : (onFree f s).peers = s.peers := rfl
@[simp] theorem onFree_te : (onFree f s).te = s.te := rfl
@[simp] theorem onFree_re : (onFree f s).re = s.re := rfl
@[simp] theorem onFree_freeBlocks : (onFree f s).freeBlocks = f s.freeBlocks := rfl
@[simp] theorem onFree_hp : (onFree f s).hp = s.hp := rfl
@[simp] theorem onFree_notices : (onFree f s).notices = s.notices := rfl
@[simp] theorem onFree_resetHeld : (onFree f s).resetHeld = s.resetHeld := rfl
@[simp] theorem onFree_choice : (onFree f s).choice = s.choice := rfl
@[simp] theorem onFree_pending : (onFree f s).pending = s.pending := rfl
end

section
variable (f : HostPort → HostPort) (s : State)
@[simp] theorem onHp_li : (onHp f s).li = s.li := rfl
@[simp] theorem onHp_fu : (onHp f s).fu = s.fu := rfl
@[simp] theorem onHp_ac : (onHp f s).ac = s.ac := rfl
@[simp] theorem onHp_peers : (onHp f s).peers = s.peers := rfl
@[simp] theorem onHp_te : (onHp f s).te = s.te := rfl
@[simp] theorem onHp_re : (onHp f s).re = s.re := rfl
@[simp] theorem onHp_freeBlocks : (onHp f s).freeBlocks = s.freeBlocks := rfl
@[simp] theorem onHp_hp : (onHp f s).hp = f s.hp := rfl
@[simp] theorem onHp_notices : (onHp f s).notices = s.notices := rfl
@[simp] theorem onHp_resetHeld : (onHp f s).resetHeld = s.resetHeld := rfl
@[simp] theorem onHp_choice : (onHp f s).choice = s.choice := rfl
@[simp] theorem onHp_pending : (onHp f s).pending = s.pending := rfl
end

section
variable (f : List NoticeRecord → List NoticeRecord) (s : State)
@[simp] theorem onNotices_li : (onNotices f s).li = s.li := rfl
@[simp] theorem onNotices_fu : (onNotices f s).fu = s.fu := rfl
@[simp] theorem onNotices_ac : (onNotices f s).ac = s.ac := rfl
@[simp] theorem onNotices_peers : (onNotices f s).peers = s.peers := rfl
@[simp] theorem onNotices_te : (onNotices f s).te = s.te := rfl
@[simp] theorem onNotices_re : (onNotices f s).re = s.re := rfl
@[simp] theorem onNotices_freeBlocks : (onNotices f s).freeBlocks = s.freeBlocks := rfl
@[simp] theorem onNotices_hp : (onNotices f s).hp = s.hp := rfl
@[simp] theorem onNotices_notices : (onNotices f s).notices = f s.notices := rfl
@[simp] theorem onNotices_resetHeld : (onNotices f s).resetHeld = s.resetHeld := rfl
@[simp] theorem onNotices_choice : (onNotices f s).choice = s.choice := rfl
@[simp] theorem onNotices_pending : (onNotices f s).pending = s.pending := rfl
end

section
variable (s : State)
@[simp] theorem nextChoice_li : (nextChoice s).li = s.li := rfl
@[simp] theorem nextChoice_fu : (nextChoice s).fu = s.fu := rfl
@[simp] theorem nextChoice_ac : (nextChoice s).ac = s.ac := rfl
@[simp] theorem nextChoice_peers : (nextChoice s).peers = s.peers := rfl
@[simp] theorem nextChoice_te : (nextChoice s).te = s.te := rfl
@[simp] theorem nextChoice_re : (nextChoice s).re = s.re := rfl
@[simp] theorem nextChoice_freeBlocks : (nextChoice s).freeBlocks = s.freeBlocks := rfl
@[simp] theorem nextChoice_hp : (nextChoice s).hp = s.hp := rfl
@[simp] theorem nextChoice_notices : (nextChoice s).notices = s.notices := rfl
@[simp] theorem nextChoice_resetHeld : (nextChoice s).resetHeld = s.resetHeld := rfl
@[simp] theorem nextChoice_choice : (nextChoice s).choice = s.choice + 1 := rfl
@[simp] theorem nextChoice_pending : (nextChoice s).pending = s.pending := rfl
end

end Sys2Proof.Machine
end

