-- ==== Sys2Proof/Laws/Frames.lean ====
section
/-! SUPPORT. What every operation leaves: one lemma for each, naming the blocks of the state that it cannot touch. A proof
about a block cites these instead of unfolding the operations that leave the block alone. -/

namespace Sys2Proof.Machine

/-! ### Parts of one block -/

@[simp] theorem onDeframer_frame (f : Deframer → Deframer) (s : State) :
    (onDeframer f s).li = s.li ∧ (onDeframer f s).ac = s.ac ∧ (onDeframer f s).peers = s.peers ∧
      (onDeframer f s).te = s.te ∧ (onDeframer f s).re = s.re ∧ (onDeframer f s).freeBlocks = s.freeBlocks ∧
      (onDeframer f s).hp = s.hp ∧ (onDeframer f s).notices = s.notices ∧ (onDeframer f s).resetHeld = s.resetHeld ∧
      (onDeframer f s).choice = s.choice ∧ (onDeframer f s).pending = s.pending := by
  simp [onDeframer]

@[simp] theorem setFramer_frame (x : Framer) (s : State) :
  (setFramer x s).li = s.li ∧ (setFramer x s).ac = s.ac ∧ (setFramer x s).peers = s.peers ∧
    (setFramer x s).te = s.te ∧ (setFramer x s).re = s.re ∧ (setFramer x s).freeBlocks = s.freeBlocks ∧
    (setFramer x s).hp = s.hp ∧ (setFramer x s).notices = s.notices ∧ (setFramer x s).resetHeld = s.resetHeld ∧
    (setFramer x s).choice = s.choice ∧ (setFramer x s).pending = s.pending := by
  simp [setFramer]

@[simp] theorem setWindow_frame (x : Window) (s : State) :
  (setWindow x s).li = s.li ∧ (setWindow x s).ac = s.ac ∧ (setWindow x s).peers = s.peers ∧
    (setWindow x s).te = s.te ∧ (setWindow x s).re = s.re ∧ (setWindow x s).freeBlocks = s.freeBlocks ∧
    (setWindow x s).hp = s.hp ∧ (setWindow x s).notices = s.notices ∧ (setWindow x s).resetHeld = s.resetHeld ∧
    (setWindow x s).choice = s.choice ∧ (setWindow x s).pending = s.pending := by
  simp [setWindow]

@[simp] theorem setStation_frame (x : StationState) (s : State) :
  (setStation x s).li = s.li ∧ (setStation x s).fu = s.fu ∧ (setStation x s).peers = s.peers ∧
    (setStation x s).te = s.te ∧ (setStation x s).re = s.re ∧ (setStation x s).freeBlocks = s.freeBlocks ∧
    (setStation x s).hp = s.hp ∧ (setStation x s).notices = s.notices ∧ (setStation x s).resetHeld = s.resetHeld ∧
    (setStation x s).choice = s.choice ∧ (setStation x s).pending = s.pending := by
  simp [setStation]

@[simp] theorem onTracker_frame (f : RoundTracker → RoundTracker) (s : State) :
    (onTracker f s).li = s.li ∧ (onTracker f s).fu = s.fu ∧ (onTracker f s).peers = s.peers ∧
      (onTracker f s).te = s.te ∧ (onTracker f s).re = s.re ∧ (onTracker f s).freeBlocks = s.freeBlocks ∧
      (onTracker f s).hp = s.hp ∧ (onTracker f s).notices = s.notices ∧ (onTracker f s).resetHeld = s.resetHeld ∧
      (onTracker f s).choice = s.choice ∧ (onTracker f s).pending = s.pending := by
  simp [onTracker]

@[simp] theorem onAccess_frame (f : AccessRecord → AccessRecord) (s : State) :
    (onAccess f s).li = s.li ∧ (onAccess f s).fu = s.fu ∧ (onAccess f s).peers = s.peers ∧ (onAccess f s).te = s.te ∧
      (onAccess f s).re = s.re ∧ (onAccess f s).freeBlocks = s.freeBlocks ∧ (onAccess f s).hp = s.hp ∧
      (onAccess f s).notices = s.notices ∧ (onAccess f s).resetHeld = s.resetHeld ∧
      (onAccess f s).choice = s.choice ∧ (onAccess f s).pending = s.pending := by
  simp [onAccess]

@[simp] theorem onOrder_frame (f : List Nat → List Nat) (s : State) :
    (onOrder f s).li = s.li ∧ (onOrder f s).fu = s.fu ∧ (onOrder f s).peers = s.peers ∧ (onOrder f s).te = s.te ∧
      (onOrder f s).re = s.re ∧ (onOrder f s).freeBlocks = s.freeBlocks ∧ (onOrder f s).hp = s.hp ∧
      (onOrder f s).notices = s.notices ∧ (onOrder f s).resetHeld = s.resetHeld ∧ (onOrder f s).choice = s.choice ∧
      (onOrder f s).pending = s.pending := by
  simp [onOrder]

@[simp] theorem setStaging_frame (x : Option Staging) (s : State) :
  (setStaging x s).li = s.li ∧ (setStaging x s).fu = s.fu ∧ (setStaging x s).ac = s.ac ∧
    (setStaging x s).peers = s.peers ∧ (setStaging x s).te = s.te ∧ (setStaging x s).freeBlocks = s.freeBlocks ∧
    (setStaging x s).hp = s.hp ∧ (setStaging x s).notices = s.notices ∧ (setStaging x s).resetHeld = s.resetHeld ∧
    (setStaging x s).choice = s.choice ∧ (setStaging x s).pending = s.pending := by
  simp [setStaging]

/-! ### Shared operations -/

@[simp] theorem passQuiet_frame (n : Nat) (s : State) :
    (passQuiet n s).fu = s.fu ∧ (passQuiet n s).peers = s.peers ∧ (passQuiet n s).te = s.te ∧
      (passQuiet n s).re = s.re ∧ (passQuiet n s).freeBlocks = s.freeBlocks ∧ (passQuiet n s).hp = s.hp ∧
      (passQuiet n s).notices = s.notices ∧ (passQuiet n s).resetHeld = s.resetHeld ∧
      (passQuiet n s).choice = s.choice ∧ (passQuiet n s).pending = s.pending := by
  simp [passQuiet]

@[simp] theorem passDriven_frame (n : Nat) (s : State) :
    (passDriven n s).fu = s.fu ∧ (passDriven n s).ac = s.ac ∧ (passDriven n s).peers = s.peers ∧
      (passDriven n s).te = s.te ∧ (passDriven n s).re = s.re ∧ (passDriven n s).freeBlocks = s.freeBlocks ∧
      (passDriven n s).hp = s.hp ∧ (passDriven n s).notices = s.notices ∧ (passDriven n s).resetHeld = s.resetHeld ∧
      (passDriven n s).choice = s.choice ∧ (passDriven n s).pending = s.pending := by
  simp [passDriven]

@[simp] theorem passTime_frame (n : Nat) (s : State) :
    (passTime n s).fu = s.fu ∧ (passTime n s).peers = s.peers ∧ (passTime n s).te = s.te ∧ (passTime n s).re = s.re ∧
      (passTime n s).freeBlocks = s.freeBlocks ∧ (passTime n s).hp = s.hp ∧ (passTime n s).notices = s.notices ∧
      (passTime n s).resetHeld = s.resetHeld ∧ (passTime n s).choice = s.choice ∧ (passTime n s).pending = s.pending := by
  unfold passTime; repeat' split
  all_goals simp

@[simp] theorem runTo_frame (t : Nat) (s : State) :
    (runTo t s).fu = s.fu ∧ (runTo t s).peers = s.peers ∧ (runTo t s).te = s.te ∧ (runTo t s).re = s.re ∧
      (runTo t s).freeBlocks = s.freeBlocks ∧ (runTo t s).hp = s.hp ∧ (runTo t s).notices = s.notices ∧
      (runTo t s).resetHeld = s.resetHeld ∧ (runTo t s).choice = s.choice ∧ (runTo t s).pending = s.pending := by
  simp [runTo]

@[simp] theorem burstTo_frame (k : Nat) (s : State) :
    (burstTo k s).fu = s.fu ∧ (burstTo k s).peers = s.peers ∧ (burstTo k s).te = s.te ∧ (burstTo k s).re = s.re ∧
      (burstTo k s).freeBlocks = s.freeBlocks ∧ (burstTo k s).hp = s.hp ∧ (burstTo k s).notices = s.notices ∧
      (burstTo k s).resetHeld = s.resetHeld ∧ (burstTo k s).choice = s.choice ∧ (burstTo k s).pending = s.pending := by
  simp [burstTo]

@[simp] theorem raise_frame (k : NoticeKind) (a : Option Nat) (d : Option ErrorKind) (s : State) :
    (raise k a d s).li = s.li ∧ (raise k a d s).fu = s.fu ∧ (raise k a d s).ac = s.ac ∧
      (raise k a d s).peers = s.peers ∧ (raise k a d s).te = s.te ∧ (raise k a d s).re = s.re ∧
      (raise k a d s).freeBlocks = s.freeBlocks ∧ (raise k a d s).hp = s.hp ∧
      (raise k a d s).resetHeld = s.resetHeld ∧ (raise k a d s).choice = s.choice ∧
      (raise k a d s).pending = s.pending := by
  simp [raise]

@[simp] theorem updatePeer_frame (a : Nat) (f : PeerEntry → PeerEntry) (s : State) :
    (updatePeer a f s).li = s.li ∧ (updatePeer a f s).fu = s.fu ∧ (updatePeer a f s).ac = s.ac ∧
      (updatePeer a f s).te = s.te ∧ (updatePeer a f s).re = s.re ∧ (updatePeer a f s).freeBlocks = s.freeBlocks ∧
      (updatePeer a f s).hp = s.hp ∧ (updatePeer a f s).notices = s.notices ∧
      (updatePeer a f s).resetHeld = s.resetHeld ∧ (updatePeer a f s).choice = s.choice ∧
      (updatePeer a f s).pending = s.pending := by
  simp [updatePeer]

@[simp] theorem peerHeard_frame (a : Nat) (s : State) :
    (peerHeard a s).li = s.li ∧ (peerHeard a s).fu = s.fu ∧ (peerHeard a s).ac = s.ac ∧ (peerHeard a s).te = s.te ∧
      (peerHeard a s).re = s.re ∧ (peerHeard a s).freeBlocks = s.freeBlocks ∧ (peerHeard a s).hp = s.hp ∧
      (peerHeard a s).resetHeld = s.resetHeld ∧ (peerHeard a s).choice = s.choice ∧
      (peerHeard a s).pending = s.pending := by
  simp only [peerHeard]; repeat' split
  all_goals simp

@[simp] theorem peerUnanswered_frame (a : Nat) (s : State) :
    (peerUnanswered a s).li = s.li ∧ (peerUnanswered a s).fu = s.fu ∧ (peerUnanswered a s).ac = s.ac ∧
      (peerUnanswered a s).te = s.te ∧ (peerUnanswered a s).re = s.re ∧
      (peerUnanswered a s).freeBlocks = s.freeBlocks ∧ (peerUnanswered a s).hp = s.hp ∧
      (peerUnanswered a s).resetHeld = s.resetHeld ∧ (peerUnanswered a s).choice = s.choice ∧
      (peerUnanswered a s).pending = s.pending := by
  simp only [peerUnanswered]; repeat' split
  all_goals simp

@[simp] theorem peerAnswered_frame (a : Nat) (s : State) :
    (peerAnswered a s).li = s.li ∧ (peerAnswered a s).fu = s.fu ∧ (peerAnswered a s).ac = s.ac ∧
      (peerAnswered a s).te = s.te ∧ (peerAnswered a s).re = s.re ∧ (peerAnswered a s).freeBlocks = s.freeBlocks ∧
      (peerAnswered a s).hp = s.hp ∧ (peerAnswered a s).notices = s.notices ∧
      (peerAnswered a s).resetHeld = s.resetHeld ∧ (peerAnswered a s).choice = s.choice ∧
      (peerAnswered a s).pending = s.pending := by
  simp [peerAnswered]

@[simp] theorem setHoldOff_frame (a : Nat) (s : State) :
  (setHoldOff a s).li = s.li ∧ (setHoldOff a s).fu = s.fu ∧ (setHoldOff a s).ac = s.ac ∧
    (setHoldOff a s).te = s.te ∧ (setHoldOff a s).re = s.re ∧ (setHoldOff a s).freeBlocks = s.freeBlocks ∧
    (setHoldOff a s).hp = s.hp ∧ (setHoldOff a s).notices = s.notices ∧ (setHoldOff a s).resetHeld = s.resetHeld ∧
    (setHoldOff a s).choice = s.choice ∧ (setHoldOff a s).pending = s.pending := by
  simp [setHoldOff]

@[simp] theorem freezeHoldOffs_frame(s : State) :
    (freezeHoldOffs s).li = s.li ∧ (freezeHoldOffs s).fu = s.fu ∧ (freezeHoldOffs s).ac = s.ac ∧
      (freezeHoldOffs s).te = s.te ∧ (freezeHoldOffs s).re = s.re ∧ (freezeHoldOffs s).freeBlocks = s.freeBlocks ∧
      (freezeHoldOffs s).hp = s.hp ∧ (freezeHoldOffs s).notices = s.notices ∧
      (freezeHoldOffs s).resetHeld = s.resetHeld ∧ (freezeHoldOffs s).choice = s.choice ∧
      (freezeHoldOffs s).pending = s.pending := by
  simp [freezeHoldOffs]

@[simp] theorem updateEntry_frame (t : Tag) (f : TxEntry → TxEntry) (s : State) :
    (updateEntry t f s).li = s.li ∧ (updateEntry t f s).fu = s.fu ∧ (updateEntry t f s).ac = s.ac ∧
      (updateEntry t f s).peers = s.peers ∧ (updateEntry t f s).re = s.re ∧
      (updateEntry t f s).freeBlocks = s.freeBlocks ∧ (updateEntry t f s).hp = s.hp ∧
      (updateEntry t f s).notices = s.notices ∧ (updateEntry t f s).resetHeld = s.resetHeld ∧
      (updateEntry t f s).choice = s.choice ∧ (updateEntry t f s).pending = s.pending := by
  simp [updateEntry]

@[simp] theorem advanceSequence_frame (e : TxEntry) (s : State) :
    (advanceSequence e s).li = s.li ∧ (advanceSequence e s).fu = s.fu ∧ (advanceSequence e s).ac = s.ac ∧
      (advanceSequence e s).te = s.te ∧ (advanceSequence e s).re = s.re ∧
      (advanceSequence e s).freeBlocks = s.freeBlocks ∧ (advanceSequence e s).hp = s.hp ∧
      (advanceSequence e s).notices = s.notices ∧ (advanceSequence e s).resetHeld = s.resetHeld ∧
      (advanceSequence e s).choice = s.choice ∧ (advanceSequence e s).pending = s.pending := by
  unfold advanceSequence; repeat' split
  all_goals simp

@[simp] theorem finishEntry_frame (t : Tag) (o : MessageOutcome) (b : Bool) (s : State) :
    (finishEntry t o b s).li = s.li ∧ (finishEntry t o b s).fu = s.fu ∧ (finishEntry t o b s).ac = s.ac ∧
      (finishEntry t o b s).re = s.re ∧ (finishEntry t o b s).hp = s.hp ∧ (finishEntry t o b s).notices = s.notices ∧
      (finishEntry t o b s).resetHeld = s.resetHeld ∧ (finishEntry t o b s).choice = s.choice ∧
      (finishEntry t o b s).pending = s.pending := by
  unfold finishEntry; repeat' split
  all_goals simp

@[simp] theorem abortAttempt_frame (t : Tag) (s : State) :
    (abortAttempt t s).li = s.li ∧ (abortAttempt t s).fu = s.fu ∧ (abortAttempt t s).ac = s.ac ∧
      (abortAttempt t s).re = s.re ∧ (abortAttempt t s).hp = s.hp ∧ (abortAttempt t s).notices = s.notices ∧
      (abortAttempt t s).resetHeld = s.resetHeld ∧ (abortAttempt t s).choice = s.choice ∧
      (abortAttempt t s).pending = s.pending := by
  unfold abortAttempt; repeat' split
  all_goals simp

@[simp] theorem recordJudgement_frame (t : Tag) (a : Nat) (j : Option AnswerCode) (s : State) :
    (recordJudgement t a j s).li = s.li ∧ (recordJudgement t a j s).fu = s.fu ∧ (recordJudgement t a j s).ac = s.ac ∧
      (recordJudgement t a j s).re = s.re ∧ (recordJudgement t a j s).freeBlocks = s.freeBlocks ∧
      (recordJudgement t a j s).hp = s.hp ∧ (recordJudgement t a j s).resetHeld = s.resetHeld ∧
      (recordJudgement t a j s).choice = s.choice ∧ (recordJudgement t a j s).pending = s.pending := by
  simp only [recordJudgement]; repeat' split
  all_goals simp

@[simp] theorem applyOutcome_frame (t : Tag) (j : Option AnswerCode) (s : State) :
    (applyOutcome t j s).li = s.li ∧ (applyOutcome t j s).fu = s.fu ∧ (applyOutcome t j s).ac = s.ac ∧
      (applyOutcome t j s).re = s.re ∧ (applyOutcome t j s).hp = s.hp ∧
      (applyOutcome t j s).resetHeld = s.resetHeld ∧ (applyOutcome t j s).choice = s.choice ∧
      (applyOutcome t j s).pending = s.pending := by
  simp only [applyOutcome]; repeat' split
  all_goals simp

@[simp] theorem takeOutcome_frame(s : State) :
    (takeOutcome s).li = s.li ∧ (takeOutcome s).ac = s.ac ∧ (takeOutcome s).re = s.re ∧ (takeOutcome s).hp = s.hp ∧
      (takeOutcome s).resetHeld = s.resetHeld ∧ (takeOutcome s).choice = s.choice ∧
      (takeOutcome s).pending = s.pending := by
  simp only [takeOutcome]; repeat' split
  all_goals simp

@[simp] theorem flushQueue_frame(s : State) :
    (flushQueue s).li = s.li ∧ (flushQueue s).fu = s.fu ∧ (flushQueue s).ac = s.ac ∧ (flushQueue s).re = s.re ∧
      (flushQueue s).hp = s.hp ∧ (flushQueue s).notices = s.notices ∧ (flushQueue s).resetHeld = s.resetHeld ∧
      (flushQueue s).choice = s.choice ∧ (flushQueue s).pending = s.pending := by
  unfold flushQueue; generalize s.te.queue = q
  induction q generalizing s with
  | nil => simp
  | cons e q ih => simpa using ih (finishEntry e.tag .withdrawn false s)

@[simp] theorem startTransmission_frame (o : Owner) (l : List Bool) (s : State) :
  (startTransmission o l s).fu = s.fu ∧ (startTransmission o l s).ac = s.ac ∧
    (startTransmission o l s).peers = s.peers ∧ (startTransmission o l s).te = s.te ∧
    (startTransmission o l s).re = s.re ∧ (startTransmission o l s).freeBlocks = s.freeBlocks ∧
    (startTransmission o l s).hp = s.hp ∧ (startTransmission o l s).notices = s.notices ∧
    (startTransmission o l s).resetHeld = s.resetHeld ∧ (startTransmission o l s).choice = s.choice ∧
    (startTransmission o l s).pending = s.pending := by
  simp [startTransmission]

@[simp] theorem releaseDriver_frame(s : State) :
    (releaseDriver s).fu = s.fu ∧ (releaseDriver s).ac = s.ac ∧ (releaseDriver s).peers = s.peers ∧
      (releaseDriver s).te = s.te ∧ (releaseDriver s).re = s.re ∧ (releaseDriver s).freeBlocks = s.freeBlocks ∧
      (releaseDriver s).hp = s.hp ∧ (releaseDriver s).notices = s.notices ∧
      (releaseDriver s).resetHeld = s.resetHeld ∧ (releaseDriver s).choice = s.choice ∧
      (releaseDriver s).pending = s.pending := by
  simp [releaseDriver]

@[simp] theorem setClaim_frame (c : Option OwnClaim) (s : State) :
  (setClaim c s).li = s.li ∧ (setClaim c s).fu = s.fu ∧ (setClaim c s).peers = s.peers ∧ (setClaim c s).te = s.te ∧
    (setClaim c s).re = s.re ∧ (setClaim c s).freeBlocks = s.freeBlocks ∧ (setClaim c s).hp = s.hp ∧
    (setClaim c s).notices = s.notices ∧ (setClaim c s).resetHeld = s.resetHeld ∧
    (setClaim c s).choice = s.choice ∧ (setClaim c s).pending = s.pending := by
  simp [setClaim]

@[simp] theorem setProgress_frame (p : Progress) (s : State) :
  (setProgress p s).li = s.li ∧ (setProgress p s).fu = s.fu ∧ (setProgress p s).peers = s.peers ∧
    (setProgress p s).te = s.te ∧ (setProgress p s).re = s.re ∧ (setProgress p s).freeBlocks = s.freeBlocks ∧
    (setProgress p s).hp = s.hp ∧ (setProgress p s).notices = s.notices ∧
    (setProgress p s).resetHeld = s.resetHeld ∧ (setProgress p s).choice = s.choice ∧
    (setProgress p s).pending = s.pending := by
  simp [setProgress]

@[simp] theorem wakeIfNeeded_frame(s : State) :
    (wakeIfNeeded s).fu = s.fu ∧ (wakeIfNeeded s).peers = s.peers ∧ (wakeIfNeeded s).te = s.te ∧
      (wakeIfNeeded s).re = s.re ∧ (wakeIfNeeded s).freeBlocks = s.freeBlocks ∧ (wakeIfNeeded s).hp = s.hp ∧
      (wakeIfNeeded s).notices = s.notices ∧ (wakeIfNeeded s).resetHeld = s.resetHeld ∧
      (wakeIfNeeded s).choice = s.choice ∧ (wakeIfNeeded s).pending = s.pending := by
  simp only [wakeIfNeeded]; repeat' split
  all_goals simp

@[simp] theorem endSensing_frame(s : State) :
    (endSensing s).te = s.te ∧ (endSensing s).freeBlocks = s.freeBlocks ∧ (endSensing s).hp = s.hp ∧
      (endSensing s).notices = s.notices ∧ (endSensing s).resetHeld = s.resetHeld ∧
      (endSensing s).choice = s.choice ∧ (endSensing s).pending = s.pending := by
  simp [endSensing]

@[simp] theorem enterOffline_frame(s : State) :
    (enterOffline s).hp = s.hp ∧ (enterOffline s).notices = s.notices ∧ (enterOffline s).resetHeld = s.resetHeld ∧
      (enterOffline s).choice = s.choice ∧ (enterOffline s).pending = s.pending := by
  simp [enterOffline]

@[simp] theorem halt_frame(s : State) :
    (halt s).te = s.te ∧ (halt s).freeBlocks = s.freeBlocks ∧ (halt s).hp = s.hp ∧ (halt s).resetHeld = s.resetHeld ∧
      (halt s).choice = s.choice ∧ (halt s).pending = s.pending := by
  simp [halt]

@[simp] theorem frameMismatch_frame(s : State) :
    (frameMismatch s).hp = s.hp ∧ (frameMismatch s).resetHeld = s.resetHeld ∧ (frameMismatch s).choice = s.choice ∧
      (frameMismatch s).pending = s.pending := by
  simp only [frameMismatch]; repeat' split
  all_goals simp

@[simp] theorem withdrawClaim_frame(s : State) :
    (withdrawClaim s).li = s.li ∧ (withdrawClaim s).fu = s.fu ∧ (withdrawClaim s).re = s.re ∧
      (withdrawClaim s).hp = s.hp ∧ (withdrawClaim s).notices = s.notices ∧
      (withdrawClaim s).resetHeld = s.resetHeld ∧ (withdrawClaim s).choice = s.choice ∧
      (withdrawClaim s).pending = s.pending := by
  simp only [withdrawClaim]; repeat' split
  all_goals simp

/-! ### Frame Unit and Receive Engine -/

@[simp] theorem reportFrame_frame (r : FrameReport) (s : State) :
    (reportFrame r s).li = s.li ∧ (reportFrame r s).fu = s.fu ∧ (reportFrame r s).peers = s.peers ∧
      (reportFrame r s).te = s.te ∧ (reportFrame r s).re = s.re ∧ (reportFrame r s).freeBlocks = s.freeBlocks ∧
      (reportFrame r s).hp = s.hp ∧ (reportFrame r s).notices = s.notices ∧
      (reportFrame r s).resetHeld = s.resetHeld ∧ (reportFrame r s).choice = s.choice ∧
      (reportFrame r s).pending = s.pending := by
  simp [reportFrame]

@[simp] theorem frameError_frame (k : ErrorKind) (a : Option Nat) (s : State) :
    (frameError k a s).li = s.li ∧ (frameError k a s).fu = s.fu ∧ (frameError k a s).ac = s.ac ∧
      (frameError k a s).peers = s.peers ∧ (frameError k a s).te = s.te ∧ (frameError k a s).re = s.re ∧
      (frameError k a s).freeBlocks = s.freeBlocks ∧ (frameError k a s).hp = s.hp ∧
      (frameError k a s).resetHeld = s.resetHeld ∧ (frameError k a s).choice = s.choice ∧
      (frameError k a s).pending = s.pending := by
  simp [frameError]

@[simp] theorem discardCandidate_frame(s : State) :
    (discardCandidate s).li = s.li ∧ (discardCandidate s).ac = s.ac ∧ (discardCandidate s).peers = s.peers ∧
      (discardCandidate s).te = s.te ∧ (discardCandidate s).re = s.re ∧
      (discardCandidate s).freeBlocks = s.freeBlocks ∧ (discardCandidate s).hp = s.hp ∧
      (discardCandidate s).notices = s.notices ∧ (discardCandidate s).resetHeld = s.resetHeld ∧
      (discardCandidate s).choice = s.choice ∧ (discardCandidate s).pending = s.pending := by
  simp [discardCandidate]

@[simp] theorem quietDeframer_frame(s : State) :
    (quietDeframer s).li = s.li ∧ (quietDeframer s).ac = s.ac ∧ (quietDeframer s).peers = s.peers ∧
      (quietDeframer s).te = s.te ∧ (quietDeframer s).re = s.re ∧ (quietDeframer s).freeBlocks = s.freeBlocks ∧
      (quietDeframer s).hp = s.hp ∧ (quietDeframer s).notices = s.notices ∧
      (quietDeframer s).resetHeld = s.resetHeld ∧ (quietDeframer s).choice = s.choice ∧
      (quietDeframer s).pending = s.pending := by
  simp [quietDeframer]

@[simp] theorem takeHunt_frame (r : Reading) (s : State) :
    (takeHunt r s).li = s.li ∧ (takeHunt r s).peers = s.peers ∧ (takeHunt r s).te = s.te ∧ (takeHunt r s).re = s.re ∧
      (takeHunt r s).freeBlocks = s.freeBlocks ∧ (takeHunt r s).hp = s.hp ∧ (takeHunt r s).resetHeld = s.resetHeld ∧
      (takeHunt r s).choice = s.choice ∧ (takeHunt r s).pending = s.pending := by
  simp only [takeHunt]; repeat' split
  all_goals simp

@[simp] theorem headerError_frame(s : State) :
    (headerError s).li = s.li ∧ (headerError s).peers = s.peers ∧ (headerError s).te = s.te ∧
      (headerError s).re = s.re ∧ (headerError s).freeBlocks = s.freeBlocks ∧ (headerError s).hp = s.hp ∧
      (headerError s).resetHeld = s.resetHeld ∧ (headerError s).choice = s.choice ∧
      (headerError s).pending = s.pending := by
  simp [headerError]

@[simp] theorem openStaging_frame (h : Header) (s : State) :
    (openStaging h s).li = s.li ∧ (openStaging h s).fu = s.fu ∧ (openStaging h s).ac = s.ac ∧
      (openStaging h s).peers = s.peers ∧ (openStaging h s).te = s.te ∧ (openStaging h s).freeBlocks = s.freeBlocks ∧
      (openStaging h s).hp = s.hp ∧ (openStaging h s).notices = s.notices ∧
      (openStaging h s).resetHeld = s.resetHeld ∧ (openStaging h s).choice = s.choice ∧
      (openStaging h s).pending = s.pending := by
  unfold openStaging; repeat' split
  all_goals simp

@[simp] theorem headerValid_frame (h : Header) (s : State) :
    (headerValid h s).li = s.li ∧ (headerValid h s).te = s.te ∧ (headerValid h s).freeBlocks = s.freeBlocks ∧
      (headerValid h s).hp = s.hp ∧ (headerValid h s).resetHeld = s.resetHeld ∧ (headerValid h s).choice = s.choice ∧
      (headerValid h s).pending = s.pending := by
  simp only [headerValid]; repeat' split
  all_goals simp

@[simp] theorem takeHeaderByte_frame (b : Byte) (s : State) :
    (takeHeaderByte b s).li = s.li ∧ (takeHeaderByte b s).te = s.te ∧
      (takeHeaderByte b s).freeBlocks = s.freeBlocks ∧ (takeHeaderByte b s).hp = s.hp ∧
      (takeHeaderByte b s).resetHeld = s.resetHeld ∧ (takeHeaderByte b s).choice = s.choice ∧
      (takeHeaderByte b s).pending = s.pending := by
  simp only [takeHeaderByte]; repeat' split
  all_goals simp

@[simp] theorem takeHeaderBit_frame (b : Bool) (s : State) :
    (takeHeaderBit b s).li = s.li ∧ (takeHeaderBit b s).te = s.te ∧ (takeHeaderBit b s).freeBlocks = s.freeBlocks ∧
      (takeHeaderBit b s).hp = s.hp ∧ (takeHeaderBit b s).resetHeld = s.resetHeld ∧
      (takeHeaderBit b s).choice = s.choice ∧ (takeHeaderBit b s).pending = s.pending := by
  simp only [takeHeaderBit]; repeat' split
  all_goals simp

@[simp] theorem takeHeader_frame (r : Reading) (s : State) :
    (takeHeader r s).li = s.li ∧ (takeHeader r s).te = s.te ∧ (takeHeader r s).freeBlocks = s.freeBlocks ∧
      (takeHeader r s).hp = s.hp ∧ (takeHeader r s).resetHeld = s.resetHeld ∧ (takeHeader r s).choice = s.choice ∧
      (takeHeader r s).pending = s.pending := by
  unfold takeHeader; repeat' split
  all_goals simp

@[simp] theorem takeBodyByte_frame (b : Byte) (s : State) :
    (takeBodyByte b s).li = s.li ∧ (takeBodyByte b s).ac = s.ac ∧ (takeBodyByte b s).peers = s.peers ∧
      (takeBodyByte b s).te = s.te ∧ (takeBodyByte b s).freeBlocks = s.freeBlocks ∧ (takeBodyByte b s).hp = s.hp ∧
      (takeBodyByte b s).notices = s.notices ∧ (takeBodyByte b s).resetHeld = s.resetHeld ∧
      (takeBodyByte b s).choice = s.choice ∧ (takeBodyByte b s).pending = s.pending := by
  simp only [takeBodyByte]; repeat' split
  all_goals simp

@[simp] theorem bodyComplete_frame(s : State) :
    (bodyComplete s).li = s.li ∧ (bodyComplete s).ac = s.ac ∧ (bodyComplete s).peers = s.peers ∧
      (bodyComplete s).te = s.te ∧ (bodyComplete s).re = s.re ∧ (bodyComplete s).freeBlocks = s.freeBlocks ∧
      (bodyComplete s).hp = s.hp ∧ (bodyComplete s).notices = s.notices ∧ (bodyComplete s).resetHeld = s.resetHeld ∧
      (bodyComplete s).choice = s.choice ∧ (bodyComplete s).pending = s.pending := by
  simp [bodyComplete]

@[simp] theorem takeBody_frame (r : Reading) (s : State) :
    (takeBody r s).li = s.li ∧ (takeBody r s).ac = s.ac ∧ (takeBody r s).peers = s.peers ∧ (takeBody r s).te = s.te ∧
      (takeBody r s).freeBlocks = s.freeBlocks ∧ (takeBody r s).hp = s.hp ∧ (takeBody r s).notices = s.notices ∧
      (takeBody r s).resetHeld = s.resetHeld ∧ (takeBody r s).pending = s.pending := by
  simp only [takeBody]; repeat' split
  all_goals simp

@[simp] theorem judgeWindow_frame (a : Option AnswerCode) (s : State) :
    (judgeWindow a s).li = s.li ∧ (judgeWindow a s).ac = s.ac ∧ (judgeWindow a s).peers = s.peers ∧
      (judgeWindow a s).te = s.te ∧ (judgeWindow a s).re = s.re ∧ (judgeWindow a s).freeBlocks = s.freeBlocks ∧
      (judgeWindow a s).hp = s.hp ∧ (judgeWindow a s).notices = s.notices ∧
      (judgeWindow a s).resetHeld = s.resetHeld ∧ (judgeWindow a s).choice = s.choice ∧
      (judgeWindow a s).pending = s.pending := by
  unfold judgeWindow; repeat' split
  all_goals simp

@[simp] theorem takeOverrun_frame(s : State) :
    (takeOverrun s).li = s.li ∧ (takeOverrun s).peers = s.peers ∧ (takeOverrun s).te = s.te ∧
      (takeOverrun s).freeBlocks = s.freeBlocks ∧ (takeOverrun s).hp = s.hp ∧
      (takeOverrun s).resetHeld = s.resetHeld ∧ (takeOverrun s).choice = s.choice ∧
      (takeOverrun s).pending = s.pending := by
  simp only [takeOverrun]; repeat' split
  all_goals simp

@[simp] theorem takeTail_frame (r : Reading) (s : State) :
    (takeTail r s).li = s.li ∧ (takeTail r s).peers = s.peers ∧ (takeTail r s).te = s.te ∧
      (takeTail r s).freeBlocks = s.freeBlocks ∧ (takeTail r s).hp = s.hp ∧ (takeTail r s).resetHeld = s.resetHeld ∧
      (takeTail r s).choice = s.choice ∧ (takeTail r s).pending = s.pending := by
  unfold takeTail; repeat' split
  all_goals simp

@[simp] theorem takeReading_frame (r : Reading) (s : State) :
    (takeReading r s).li = s.li ∧ (takeReading r s).te = s.te ∧ (takeReading r s).freeBlocks = s.freeBlocks ∧
      (takeReading r s).hp = s.hp ∧ (takeReading r s).resetHeld = s.resetHeld ∧ (takeReading r s).pending = s.pending := by
  unfold takeReading; repeat' split
  all_goals simp

@[simp] theorem storeFrame_frame (k : RecordKind) (h : FrameHeader) (s : State) :
  (storeFrame k h s).li = s.li ∧ (storeFrame k h s).fu = s.fu ∧ (storeFrame k h s).ac = s.ac ∧
    (storeFrame k h s).peers = s.peers ∧ (storeFrame k h s).te = s.te ∧ (storeFrame k h s).hp = s.hp ∧
    (storeFrame k h s).notices = s.notices ∧ (storeFrame k h s).resetHeld = s.resetHeld ∧
    (storeFrame k h s).choice = s.choice ∧ (storeFrame k h s).pending = s.pending := by
  simp [storeFrame]

@[simp] theorem directEffect_frame (c : AnswerCode) (h : FrameHeader) (s : State) :
    (directEffect c h s).li = s.li ∧ (directEffect c h s).fu = s.fu ∧ (directEffect c h s).ac = s.ac ∧
      (directEffect c h s).te = s.te ∧ (directEffect c h s).hp = s.hp ∧
      (directEffect c h s).resetHeld = s.resetHeld ∧ (directEffect c h s).choice = s.choice ∧
      (directEffect c h s).pending = s.pending := by
  unfold directEffect; repeat' split
  all_goals simp

@[simp] theorem answerDue_frame (d : Nat) (c : AnswerCode) (q : Seq) (s : State) :
    (answerDue d c q s).li = s.li ∧ (answerDue d c q s).ac = s.ac ∧ (answerDue d c q s).peers = s.peers ∧
      (answerDue d c q s).te = s.te ∧ (answerDue d c q s).re = s.re ∧ (answerDue d c q s).freeBlocks = s.freeBlocks ∧
      (answerDue d c q s).hp = s.hp ∧ (answerDue d c q s).notices = s.notices ∧
      (answerDue d c q s).resetHeld = s.resetHeld ∧ (answerDue d c q s).choice = s.choice ∧
      (answerDue d c q s).pending = s.pending := by
  simp [answerDue]

@[simp] theorem directDecision_frame (g : Bool) (h : FrameHeader) (s : State) :
    (directDecision g h s).li = s.li ∧ (directDecision g h s).ac = s.ac ∧ (directDecision g h s).te = s.te ∧
      (directDecision g h s).hp = s.hp ∧ (directDecision g h s).resetHeld = s.resetHeld ∧
      (directDecision g h s).choice = s.choice ∧ (directDecision g h s).pending = s.pending := by
  simp [directDecision]

@[simp] theorem probeDecision_frame (g : Bool) (h : FrameHeader) (s : State) :
    (probeDecision g h s).li = s.li ∧ (probeDecision g h s).ac = s.ac ∧ (probeDecision g h s).peers = s.peers ∧
      (probeDecision g h s).te = s.te ∧ (probeDecision g h s).re = s.re ∧
      (probeDecision g h s).freeBlocks = s.freeBlocks ∧ (probeDecision g h s).hp = s.hp ∧
      (probeDecision g h s).notices = s.notices ∧ (probeDecision g h s).resetHeld = s.resetHeld ∧
      (probeDecision g h s).choice = s.choice ∧ (probeDecision g h s).pending = s.pending := by
  unfold probeDecision; repeat' split
  all_goals simp

@[simp] theorem broadcastDecision_frame (g : Bool) (h : FrameHeader) (s : State) :
    (broadcastDecision g h s).li = s.li ∧ (broadcastDecision g h s).fu = s.fu ∧ (broadcastDecision g h s).ac = s.ac ∧
      (broadcastDecision g h s).peers = s.peers ∧ (broadcastDecision g h s).te = s.te ∧
      (broadcastDecision g h s).hp = s.hp ∧ (broadcastDecision g h s).notices = s.notices ∧
      (broadcastDecision g h s).resetHeld = s.resetHeld ∧ (broadcastDecision g h s).choice = s.choice ∧
      (broadcastDecision g h s).pending = s.pending := by
  unfold broadcastDecision; repeat' split
  all_goals simp

@[simp] theorem receiveDecision_frame (g : Bool) (h : Header) (s : State) :
    (receiveDecision g h s).li = s.li ∧ (receiveDecision g h s).ac = s.ac ∧ (receiveDecision g h s).te = s.te ∧
      (receiveDecision g h s).hp = s.hp ∧ (receiveDecision g h s).resetHeld = s.resetHeld ∧
      (receiveDecision g h s).choice = s.choice ∧ (receiveDecision g h s).pending = s.pending := by
  simp only [receiveDecision]; repeat' split
  all_goals simp

@[simp] theorem frameEnd_frame (h : Header) (s : State) :
    (frameEnd h s).li = s.li ∧ (frameEnd h s).te = s.te ∧ (frameEnd h s).hp = s.hp ∧
      (frameEnd h s).resetHeld = s.resetHeld ∧ (frameEnd h s).choice = s.choice ∧ (frameEnd h s).pending = s.pending := by
  simp only [frameEnd]; repeat' split
  all_goals simp

@[simp] theorem truncatedEnd_frame(s : State) :
    (truncatedEnd s).li = s.li ∧ (truncatedEnd s).fu = s.fu ∧ (truncatedEnd s).peers = s.peers ∧
      (truncatedEnd s).te = s.te ∧ (truncatedEnd s).freeBlocks = s.freeBlocks ∧ (truncatedEnd s).hp = s.hp ∧
      (truncatedEnd s).resetHeld = s.resetHeld ∧ (truncatedEnd s).choice = s.choice ∧
      (truncatedEnd s).pending = s.pending := by
  simp only [truncatedEnd]; repeat' split
  all_goals simp

@[simp] theorem candidateEnd_frame(s : State) :
    (candidateEnd s).li = s.li ∧ (candidateEnd s).te = s.te ∧ (candidateEnd s).hp = s.hp ∧
      (candidateEnd s).resetHeld = s.resetHeld ∧ (candidateEnd s).choice = s.choice ∧
      (candidateEnd s).pending = s.pending := by
  simp only [candidateEnd]; repeat' split
  all_goals simp

@[simp] theorem handReading_frame(s : State) :
    (handReading s).fu = s.fu ∧ (handReading s).peers = s.peers ∧ (handReading s).te = s.te ∧
      (handReading s).re = s.re ∧ (handReading s).freeBlocks = s.freeBlocks ∧ (handReading s).hp = s.hp ∧
      (handReading s).notices = s.notices ∧ (handReading s).resetHeld = s.resetHeld ∧
      (handReading s).choice = s.choice ∧ (handReading s).pending = s.pending := by
  simp [handReading]

@[simp] theorem readingStep_frame (r : Reading) (s : State) :
    (readingStep r s).te = s.te ∧ (readingStep r s).freeBlocks = s.freeBlocks ∧ (readingStep r s).hp = s.hp ∧
      (readingStep r s).resetHeld = s.resetHeld ∧ (readingStep r s).pending = s.pending := by
  simp [readingStep]

@[simp] theorem setHeld_frame (x : Bool) (s : State) :
    (setHeld x s).fu = s.fu ∧ (setHeld x s).ac = s.ac ∧ (setHeld x s).peers = s.peers ∧ (setHeld x s).te = s.te ∧
      (setHeld x s).re = s.re ∧ (setHeld x s).freeBlocks = s.freeBlocks ∧ (setHeld x s).hp = s.hp ∧
      (setHeld x s).notices = s.notices ∧ (setHeld x s).resetHeld = s.resetHeld ∧ (setHeld x s).choice = s.choice ∧
      (setHeld x s).pending = s.pending := by
  simp [setHeld]

@[simp] theorem passHeld_frame (s : State) :
    (passHeld s).te = s.te ∧ (passHeld s).freeBlocks = s.freeBlocks ∧ (passHeld s).hp = s.hp ∧
      (passHeld s).resetHeld = s.resetHeld ∧ (passHeld s).pending = s.pending := by
  unfold passHeld; split <;> simp

@[simp] theorem passReading_frame (r : Reading) (s : State) :
    (passReading r s).te = s.te ∧ (passReading r s).freeBlocks = s.freeBlocks ∧ (passReading r s).hp = s.hp ∧
      (passReading r s).resetHeld = s.resetHeld ∧ (passReading r s).pending = s.pending := by
  simp [passReading]

@[simp] theorem sendAnswer_frame (a : Answer) (s : State) :
  (sendAnswer a s).ac = s.ac ∧ (sendAnswer a s).peers = s.peers ∧ (sendAnswer a s).te = s.te ∧
    (sendAnswer a s).re = s.re ∧ (sendAnswer a s).freeBlocks = s.freeBlocks ∧ (sendAnswer a s).hp = s.hp ∧
    (sendAnswer a s).notices = s.notices ∧ (sendAnswer a s).resetHeld = s.resetHeld ∧
    (sendAnswer a s).choice = s.choice ∧ (sendAnswer a s).pending = s.pending := by
  unfold sendAnswer; repeat' split
  all_goals simp

/-! ### Line Interface -/

@[simp] theorem beginBurst_frame(s : State) :
    (beginBurst s).fu = s.fu ∧ (beginBurst s).ac = s.ac ∧ (beginBurst s).peers = s.peers ∧ (beginBurst s).te = s.te ∧
      (beginBurst s).re = s.re ∧ (beginBurst s).freeBlocks = s.freeBlocks ∧ (beginBurst s).hp = s.hp ∧
      (beginBurst s).notices = s.notices ∧ (beginBurst s).resetHeld = s.resetHeld ∧
      (beginBurst s).choice = s.choice ∧ (beginBurst s).pending = s.pending := by
  simp [beginBurst]

@[simp] theorem activeAtAc_frame(s : State) :
    (activeAtAc s).li = s.li ∧ (activeAtAc s).fu = s.fu ∧ (activeAtAc s).peers = s.peers ∧ (activeAtAc s).te = s.te ∧
      (activeAtAc s).re = s.re ∧ (activeAtAc s).freeBlocks = s.freeBlocks ∧ (activeAtAc s).hp = s.hp ∧
      (activeAtAc s).notices = s.notices ∧ (activeAtAc s).resetHeld = s.resetHeld ∧
      (activeAtAc s).choice = s.choice ∧ (activeAtAc s).pending = s.pending := by
  simp [activeAtAc]

@[simp] theorem activeEvent_frame(s : State) :
    (activeEvent s).fu = s.fu ∧ (activeEvent s).peers = s.peers ∧ (activeEvent s).te = s.te ∧
      (activeEvent s).re = s.re ∧ (activeEvent s).freeBlocks = s.freeBlocks ∧ (activeEvent s).hp = s.hp ∧
      (activeEvent s).notices = s.notices ∧ (activeEvent s).resetHeld = s.resetHeld ∧
      (activeEvent s).choice = s.choice ∧ (activeEvent s).pending = s.pending := by
  simp [activeEvent]

@[simp] theorem candidateStep_frame (b : Burst) (s : State) :
    (candidateStep b s).peers = s.peers ∧ (candidateStep b s).te = s.te ∧ (candidateStep b s).re = s.re ∧
      (candidateStep b s).freeBlocks = s.freeBlocks ∧ (candidateStep b s).hp = s.hp ∧
      (candidateStep b s).notices = s.notices ∧ (candidateStep b s).resetHeld = s.resetHeld ∧
      (candidateStep b s).choice = s.choice ∧ (candidateStep b s).pending = s.pending := by
  simp [candidateStep]

@[simp] theorem windowAtBurstEnd_frame (b : Burst) (a : Option AnswerCode) (s : State) :
    (windowAtBurstEnd b a s).li = s.li ∧ (windowAtBurstEnd b a s).ac = s.ac ∧
      (windowAtBurstEnd b a s).peers = s.peers ∧ (windowAtBurstEnd b a s).te = s.te ∧
      (windowAtBurstEnd b a s).re = s.re ∧ (windowAtBurstEnd b a s).freeBlocks = s.freeBlocks ∧
      (windowAtBurstEnd b a s).hp = s.hp ∧ (windowAtBurstEnd b a s).notices = s.notices ∧
      (windowAtBurstEnd b a s).resetHeld = s.resetHeld ∧ (windowAtBurstEnd b a s).choice = s.choice ∧
      (windowAtBurstEnd b a s).pending = s.pending := by
  unfold windowAtBurstEnd; repeat' split
  all_goals simp

@[simp] theorem burstEndAtAc_frame (b : Burst) (s : State) :
    (burstEndAtAc b s).li = s.li ∧ (burstEndAtAc b s).fu = s.fu ∧ (burstEndAtAc b s).peers = s.peers ∧
      (burstEndAtAc b s).te = s.te ∧ (burstEndAtAc b s).re = s.re ∧ (burstEndAtAc b s).freeBlocks = s.freeBlocks ∧
      (burstEndAtAc b s).hp = s.hp ∧ (burstEndAtAc b s).notices = s.notices ∧
      (burstEndAtAc b s).resetHeld = s.resetHeld ∧ (burstEndAtAc b s).choice = s.choice ∧
      (burstEndAtAc b s).pending = s.pending := by
  simp [burstEndAtAc]

@[simp] theorem quietAtLi_frame (b : Burst) (s : State) :
    (quietAtLi b s).fu = s.fu ∧ (quietAtLi b s).ac = s.ac ∧ (quietAtLi b s).peers = s.peers ∧
      (quietAtLi b s).te = s.te ∧ (quietAtLi b s).re = s.re ∧ (quietAtLi b s).freeBlocks = s.freeBlocks ∧
      (quietAtLi b s).hp = s.hp ∧ (quietAtLi b s).notices = s.notices ∧ (quietAtLi b s).resetHeld = s.resetHeld ∧
      (quietAtLi b s).choice = s.choice ∧ (quietAtLi b s).pending = s.pending := by
  simp [quietAtLi]

@[simp] theorem burstEnd_frame (b : Burst) (s : State) :
    (burstEnd b s).te = s.te ∧ (burstEnd b s).hp = s.hp ∧ (burstEnd b s).resetHeld = s.resetHeld ∧
      (burstEnd b s).choice = s.choice ∧ (burstEnd b s).pending = s.pending := by
  simp only [burstEnd]; repeat' split
  all_goals simp

@[simp] theorem quietEvent_frame(s : State) :
    (quietEvent s).te = s.te ∧ (quietEvent s).hp = s.hp ∧ (quietEvent s).resetHeld = s.resetHeld ∧
      (quietEvent s).choice = s.choice ∧ (quietEvent s).pending = s.pending := by
  unfold quietEvent; repeat' split
  all_goals simp

@[simp] theorem framePassed_frame (r : FrameRequest) (s : State) :
    (framePassed r s).li = s.li ∧ (framePassed r s).peers = s.peers ∧ (framePassed r s).re = s.re ∧
      (framePassed r s).freeBlocks = s.freeBlocks ∧ (framePassed r s).hp = s.hp ∧
      (framePassed r s).notices = s.notices ∧ (framePassed r s).resetHeld = s.resetHeld ∧
      (framePassed r s).choice = s.choice ∧ (framePassed r s).pending = s.pending := by
  simp only [framePassed]; repeat' split
  all_goals simp

@[simp] theorem markPassed_frame(s : State) :
    (markPassed s).li = s.li ∧ (markPassed s).fu = s.fu ∧ (markPassed s).peers = s.peers ∧ (markPassed s).te = s.te ∧
      (markPassed s).re = s.re ∧ (markPassed s).freeBlocks = s.freeBlocks ∧ (markPassed s).hp = s.hp ∧
      (markPassed s).notices = s.notices ∧ (markPassed s).resetHeld = s.resetHeld ∧
      (markPassed s).choice = s.choice ∧ (markPassed s).pending = s.pending := by
  unfold markPassed; repeat' split
  all_goals simp

@[simp] theorem finishTransmission_frame (t : Transmission) (s : State) :
    (finishTransmission t s).fu = s.fu ∧ (finishTransmission t s).peers = s.peers ∧
      (finishTransmission t s).te = s.te ∧ (finishTransmission t s).re = s.re ∧
      (finishTransmission t s).freeBlocks = s.freeBlocks ∧ (finishTransmission t s).hp = s.hp ∧
      (finishTransmission t s).notices = s.notices ∧ (finishTransmission t s).resetHeld = s.resetHeld ∧
      (finishTransmission t s).choice = s.choice ∧ (finishTransmission t s).pending = s.pending := by
  simp only [finishTransmission]; repeat' split
  all_goals simp

@[simp] theorem echoPass_frame (t : Transmission) (s : State) :
    (echoPass t s).peers = s.peers ∧ (echoPass t s).re = s.re ∧ (echoPass t s).freeBlocks = s.freeBlocks ∧
      (echoPass t s).hp = s.hp ∧ (echoPass t s).notices = s.notices ∧ (echoPass t s).resetHeld = s.resetHeld ∧
      (echoPass t s).choice = s.choice ∧ (echoPass t s).pending = s.pending := by
  simp only [echoPass]; repeat' split
  all_goals simp

@[simp] theorem markPartial_frame(s : State) :
    (markPartial s).peers = s.peers ∧ (markPartial s).te = s.te ∧ (markPartial s).freeBlocks = s.freeBlocks ∧
      (markPartial s).hp = s.hp ∧ (markPartial s).notices = s.notices ∧ (markPartial s).resetHeld = s.resetHeld ∧
      (markPartial s).choice = s.choice ∧ (markPartial s).pending = s.pending := by
  simp [markPartial]

@[simp] theorem mismatchAtOwner_frame (o : Owner) (s : State) :
    (mismatchAtOwner o s).hp = s.hp ∧ (mismatchAtOwner o s).resetHeld = s.resetHeld ∧
      (mismatchAtOwner o s).choice = s.choice ∧ (mismatchAtOwner o s).pending = s.pending := by
  unfold mismatchAtOwner; repeat' split
  all_goals simp

@[simp] theorem echoMismatch_frame (t : Transmission) (s : State) :
    (echoMismatch t s).hp = s.hp ∧ (echoMismatch t s).resetHeld = s.resetHeld ∧
      (echoMismatch t s).choice = s.choice ∧ (echoMismatch t s).pending = s.pending := by
  simp [echoMismatch]

@[simp] theorem stationAtStuck_frame(s : State) :
  (stationAtStuck s).hp = s.hp ∧ (stationAtStuck s).notices = s.notices ∧
    (stationAtStuck s).resetHeld = s.resetHeld ∧ (stationAtStuck s).choice = s.choice ∧
    (stationAtStuck s).pending = s.pending := by
  unfold stationAtStuck; repeat' split
  all_goals simp

@[simp] theorem stuckNotices_frame(s : State) :
  (stuckNotices s).li = s.li ∧ (stuckNotices s).ac = s.ac ∧ (stuckNotices s).re = s.re ∧
    (stuckNotices s).hp = s.hp ∧ (stuckNotices s).resetHeld = s.resetHeld ∧ (stuckNotices s).pending = s.pending := by
  unfold stuckNotices; repeat' split
  all_goals simp

@[simp] theorem declareStuck_frame(s : State) :
    (declareStuck s).hp = s.hp ∧ (declareStuck s).resetHeld = s.resetHeld ∧ (declareStuck s).pending = s.pending := by
  simp [declareStuck]

@[simp] theorem declareFree_frame(s : State) :
    (declareFree s).te = s.te ∧ (declareFree s).hp = s.hp ∧ (declareFree s).resetHeld = s.resetHeld ∧
      (declareFree s).choice = s.choice ∧ (declareFree s).pending = s.pending := by
  simp [declareFree]

/-! ### Access Controller -/

@[simp] theorem rotateOrder_frame (a : Nat) (s : State) :
    (rotateOrder a s).li = s.li ∧ (rotateOrder a s).fu = s.fu ∧ (rotateOrder a s).peers = s.peers ∧
      (rotateOrder a s).te = s.te ∧ (rotateOrder a s).re = s.re ∧ (rotateOrder a s).freeBlocks = s.freeBlocks ∧
      (rotateOrder a s).hp = s.hp ∧ (rotateOrder a s).notices = s.notices ∧
      (rotateOrder a s).resetHeld = s.resetHeld ∧ (rotateOrder a s).choice = s.choice ∧
      (rotateOrder a s).pending = s.pending := by
  simp [rotateOrder]

@[simp] theorem resetOrder_frame (a : Nat) (s : State) :
    (resetOrder a s).li = s.li ∧ (resetOrder a s).fu = s.fu ∧ (resetOrder a s).peers = s.peers ∧
      (resetOrder a s).te = s.te ∧ (resetOrder a s).re = s.re ∧ (resetOrder a s).freeBlocks = s.freeBlocks ∧
      (resetOrder a s).hp = s.hp ∧ (resetOrder a s).notices = s.notices ∧ (resetOrder a s).resetHeld = s.resetHeld ∧
      (resetOrder a s).choice = s.choice ∧ (resetOrder a s).pending = s.pending := by
  simp [resetOrder]

@[simp] theorem diverged_frame (a : Option Nat) (s : State) :
    (diverged a s).li = s.li ∧ (diverged a s).fu = s.fu ∧ (diverged a s).peers = s.peers ∧ (diverged a s).te = s.te ∧
      (diverged a s).re = s.re ∧ (diverged a s).freeBlocks = s.freeBlocks ∧ (diverged a s).hp = s.hp ∧
      (diverged a s).resetHeld = s.resetHeld ∧ (diverged a s).choice = s.choice ∧ (diverged a s).pending = s.pending := by
  simp [diverged]

@[simp] theorem applyOrderReset_frame (h : FrameHeader) (b : OrderResetBody) (s : State) :
    (applyOrderReset h b s).li = s.li ∧ (applyOrderReset h b s).fu = s.fu ∧ (applyOrderReset h b s).te = s.te ∧
      (applyOrderReset h b s).re = s.re ∧ (applyOrderReset h b s).freeBlocks = s.freeBlocks ∧
      (applyOrderReset h b s).hp = s.hp ∧ (applyOrderReset h b s).resetHeld = s.resetHeld ∧
      (applyOrderReset h b s).choice = s.choice ∧ (applyOrderReset h b s).pending = s.pending := by
  simp only [applyOrderReset]; repeat' split
  all_goals simp

@[simp] theorem verifyHeader_frame (h : FrameHeader) (s : State) :
    (verifyHeader h s).li = s.li ∧ (verifyHeader h s).fu = s.fu ∧ (verifyHeader h s).peers = s.peers ∧
      (verifyHeader h s).te = s.te ∧ (verifyHeader h s).re = s.re ∧ (verifyHeader h s).freeBlocks = s.freeBlocks ∧
      (verifyHeader h s).hp = s.hp ∧ (verifyHeader h s).resetHeld = s.resetHeld ∧
      (verifyHeader h s).choice = s.choice ∧ (verifyHeader h s).pending = s.pending := by
  simp only [verifyHeader]; repeat' split
  all_goals simp

@[simp] theorem rotateByMark_frame(s : State) :
    (rotateByMark s).li = s.li ∧ (rotateByMark s).fu = s.fu ∧ (rotateByMark s).peers = s.peers ∧
      (rotateByMark s).te = s.te ∧ (rotateByMark s).re = s.re ∧ (rotateByMark s).freeBlocks = s.freeBlocks ∧
      (rotateByMark s).hp = s.hp ∧ (rotateByMark s).resetHeld = s.resetHeld ∧ (rotateByMark s).choice = s.choice ∧
      (rotateByMark s).pending = s.pending := by
  unfold rotateByMark; repeat' split
  all_goals simp

@[simp] theorem placeAnswer_frame (h : AnswerHeader) (s : State) :
    (placeAnswer h s).li = s.li ∧ (placeAnswer h s).fu = s.fu ∧ (placeAnswer h s).peers = s.peers ∧
      (placeAnswer h s).te = s.te ∧ (placeAnswer h s).re = s.re ∧ (placeAnswer h s).freeBlocks = s.freeBlocks ∧
      (placeAnswer h s).hp = s.hp ∧ (placeAnswer h s).resetHeld = s.resetHeld ∧ (placeAnswer h s).choice = s.choice ∧
      (placeAnswer h s).pending = s.pending := by
  unfold placeAnswer; repeat' split
  all_goals simp

@[simp] theorem ownFrameEnd_frame(s : State) :
    (ownFrameEnd s).li = s.li ∧ (ownFrameEnd s).fu = s.fu ∧ (ownFrameEnd s).peers = s.peers ∧
      (ownFrameEnd s).te = s.te ∧ (ownFrameEnd s).re = s.re ∧ (ownFrameEnd s).freeBlocks = s.freeBlocks ∧
      (ownFrameEnd s).hp = s.hp ∧ (ownFrameEnd s).notices = s.notices ∧ (ownFrameEnd s).resetHeld = s.resetHeld ∧
      (ownFrameEnd s).choice = s.choice ∧ (ownFrameEnd s).pending = s.pending := by
  unfold ownFrameEnd; repeat' split
  all_goals simp

@[simp] theorem onlineEnd_frame(s : State) :
    (onlineEnd s).te = s.te ∧ (onlineEnd s).freeBlocks = s.freeBlocks ∧ (onlineEnd s).hp = s.hp ∧
      (onlineEnd s).resetHeld = s.resetHeld ∧ (onlineEnd s).choice = s.choice ∧ (onlineEnd s).pending = s.pending := by
  unfold onlineEnd; repeat' split
  all_goals simp [takeOrderReset]; try (split <;> simp)

@[simp] theorem resyncEnd_frame(s : State) :
    (resyncEnd s).te = s.te ∧ (resyncEnd s).freeBlocks = s.freeBlocks ∧ (resyncEnd s).hp = s.hp ∧
      (resyncEnd s).resetHeld = s.resetHeld ∧ (resyncEnd s).choice = s.choice ∧ (resyncEnd s).pending = s.pending := by
  unfold resyncEnd; repeat' split
  all_goals simp [takeOrderReset]; try (split <;> simp)

@[simp] theorem listeningEnd_frame(s : State) :
    (listeningEnd s).te = s.te ∧ (listeningEnd s).freeBlocks = s.freeBlocks ∧ (listeningEnd s).hp = s.hp ∧
      (listeningEnd s).resetHeld = s.resetHeld ∧ (listeningEnd s).choice = s.choice ∧
      (listeningEnd s).pending = s.pending := by
  unfold listeningEnd; repeat' split
  all_goals simp [takeOrderReset]; try (split <;> simp)

@[simp] theorem leavingEnd_frame(s : State) :
    (leavingEnd s).hp = s.hp ∧ (leavingEnd s).resetHeld = s.resetHeld ∧ (leavingEnd s).choice = s.choice ∧
      (leavingEnd s).pending = s.pending := by
  unfold leavingEnd; repeat' split
  all_goals simp

@[simp] theorem accessEndAtAc_frame(s : State) :
    (accessEndAtAc s).hp = s.hp ∧ (accessEndAtAc s).resetHeld = s.resetHeld ∧ (accessEndAtAc s).choice = s.choice ∧
      (accessEndAtAc s).pending = s.pending := by
  unfold accessEndAtAc; repeat' split
  all_goals simp

@[simp] theorem nextRound_frame (t : Nat) (s : State) :
  (nextRound t s).li = s.li ∧ (nextRound t s).fu = s.fu ∧ (nextRound t s).peers = s.peers ∧
    (nextRound t s).te = s.te ∧ (nextRound t s).re = s.re ∧ (nextRound t s).freeBlocks = s.freeBlocks ∧
    (nextRound t s).hp = s.hp ∧ (nextRound t s).notices = s.notices ∧ (nextRound t s).resetHeld = s.resetHeld ∧
    (nextRound t s).choice = s.choice ∧ (nextRound t s).pending = s.pending := by
  simp [nextRound]

@[simp] theorem startRound_frame (t : Nat) (s : State) :
  (startRound t s).li = s.li ∧ (startRound t s).fu = s.fu ∧ (startRound t s).peers = s.peers ∧
    (startRound t s).te = s.te ∧ (startRound t s).re = s.re ∧ (startRound t s).freeBlocks = s.freeBlocks ∧
    (startRound t s).hp = s.hp ∧ (startRound t s).notices = s.notices ∧ (startRound t s).resetHeld = s.resetHeld ∧
    (startRound t s).choice = s.choice ∧ (startRound t s).pending = s.pending := by
  simp [startRound]

@[simp] theorem accessEnd_frame (t : Nat) (s : State) :
    (accessEnd t s).hp = s.hp ∧ (accessEnd t s).resetHeld = s.resetHeld ∧ (accessEnd t s).choice = s.choice ∧
      (accessEnd t s).pending = s.pending := by
  simp only [accessEnd]; repeat' split
  all_goals simp

@[simp] theorem completeGuard_frame (n : Nat) (s : State) :
    (completeGuard n s).hp = s.hp ∧ (completeGuard n s).resetHeld = s.resetHeld ∧
      (completeGuard n s).choice = s.choice ∧ (completeGuard n s).pending = s.pending := by
  simp [completeGuard]

@[simp] theorem launchEntry_frame (c : ClaimContent) (s : State) :
    (launchEntry c s).li = s.li ∧ (launchEntry c s).fu = s.fu ∧ (launchEntry c s).ac = s.ac ∧
      (launchEntry c s).peers = s.peers ∧ (launchEntry c s).re = s.re ∧ (launchEntry c s).freeBlocks = s.freeBlocks ∧
      (launchEntry c s).hp = s.hp ∧ (launchEntry c s).notices = s.notices ∧
      (launchEntry c s).resetHeld = s.resetHeld ∧ (launchEntry c s).choice = s.choice ∧
      (launchEntry c s).pending = s.pending := by
  unfold launchEntry; repeat' split
  all_goals simp

@[simp] theorem claimSlot_frame (k : Nat) (c : ClaimContent) (s : State) :
    (claimSlot k c s).fu = s.fu ∧ (claimSlot k c s).re = s.re ∧ (claimSlot k c s).hp = s.hp ∧
      (claimSlot k c s).notices = s.notices ∧ (claimSlot k c s).resetHeld = s.resetHeld ∧
      (claimSlot k c s).choice = s.choice ∧ (claimSlot k c s).pending = s.pending := by
  simp only [claimSlot]; repeat' split
  all_goals simp

@[simp] theorem slotStart_frame (k : Nat) (s : State) :
  (slotStart k s).fu = s.fu ∧ (slotStart k s).re = s.re ∧ (slotStart k s).hp = s.hp ∧
    (slotStart k s).notices = s.notices ∧ (slotStart k s).resetHeld = s.resetHeld ∧
    (slotStart k s).choice = s.choice ∧ (slotStart k s).pending = s.pending := by
  simp only [slotStart]; repeat' split
  all_goals simp

@[simp] theorem sendFrame_frame (r : FrameRequest) (s : State) :
  (sendFrame r s).hp = s.hp ∧ (sendFrame r s).resetHeld = s.resetHeld ∧ (sendFrame r s).choice = s.choice ∧
    (sendFrame r s).pending = s.pending := by
  simp only [sendFrame]; repeat' split
  all_goals simp

@[simp] theorem frameStart_frame (c : OwnClaim) (s : State) :
    (frameStart c s).hp = s.hp ∧ (frameStart c s).resetHeld = s.resetHeld ∧ (frameStart c s).choice = s.choice ∧
      (frameStart c s).pending = s.pending := by
  simp only [frameStart]; repeat' split
  all_goals simp

@[simp] theorem endRound_frame(s : State) :
    (endRound s).fu = s.fu ∧ (endRound s).peers = s.peers ∧ (endRound s).te = s.te ∧ (endRound s).re = s.re ∧
      (endRound s).freeBlocks = s.freeBlocks ∧ (endRound s).hp = s.hp ∧ (endRound s).notices = s.notices ∧
      (endRound s).resetHeld = s.resetHeld ∧ (endRound s).choice = s.choice ∧ (endRound s).pending = s.pending := by
  simp only [endRound]; repeat' split
  all_goals simp

@[simp] theorem concludeRest_frame(s : State) :
    (concludeRest s).fu = s.fu ∧ (concludeRest s).peers = s.peers ∧ (concludeRest s).te = s.te ∧
      (concludeRest s).re = s.re ∧ (concludeRest s).freeBlocks = s.freeBlocks ∧ (concludeRest s).hp = s.hp ∧
      (concludeRest s).notices = s.notices ∧ (concludeRest s).resetHeld = s.resetHeld ∧
      (concludeRest s).choice = s.choice ∧ (concludeRest s).pending = s.pending := by
  simp [concludeRest]

@[simp] theorem expireHoldOff_frame (a e : Nat) (s : State) :
    (expireHoldOff a e s).fu = s.fu ∧ (expireHoldOff a e s).te = s.te ∧ (expireHoldOff a e s).re = s.re ∧
      (expireHoldOff a e s).freeBlocks = s.freeBlocks ∧ (expireHoldOff a e s).hp = s.hp ∧
      (expireHoldOff a e s).notices = s.notices ∧ (expireHoldOff a e s).resetHeld = s.resetHeld ∧
      (expireHoldOff a e s).choice = s.choice ∧ (expireHoldOff a e s).pending = s.pending := by
  simp [expireHoldOff]

/-! ### Host Port -/

@[simp] theorem takeCommand_frame (c : Option Command) (s : State) :
    (takeCommand c s).li = s.li ∧ (takeCommand c s).fu = s.fu ∧ (takeCommand c s).ac = s.ac ∧
      (takeCommand c s).peers = s.peers ∧ (takeCommand c s).te = s.te ∧ (takeCommand c s).re = s.re ∧
      (takeCommand c s).freeBlocks = s.freeBlocks ∧ (takeCommand c s).notices = s.notices ∧
      (takeCommand c s).resetHeld = s.resetHeld ∧ (takeCommand c s).choice = s.choice ∧
      (takeCommand c s).pending = s.pending := by
  simp [takeCommand]

@[simp] theorem takeParameter_frame (b : Byte) (s : State) :
    (takeParameter b s).li = s.li ∧ (takeParameter b s).fu = s.fu ∧ (takeParameter b s).ac = s.ac ∧
      (takeParameter b s).peers = s.peers ∧ (takeParameter b s).te = s.te ∧ (takeParameter b s).re = s.re ∧
      (takeParameter b s).freeBlocks = s.freeBlocks ∧ (takeParameter b s).notices = s.notices ∧
      (takeParameter b s).resetHeld = s.resetHeld ∧ (takeParameter b s).choice = s.choice ∧
      (takeParameter b s).pending = s.pending := by
  simp [takeParameter]

@[simp] theorem clockStream_frame(s : State) :
    (clockStream s).li = s.li ∧ (clockStream s).fu = s.fu ∧ (clockStream s).ac = s.ac ∧
      (clockStream s).peers = s.peers ∧ (clockStream s).te = s.te ∧ (clockStream s).re = s.re ∧
      (clockStream s).freeBlocks = s.freeBlocks ∧ (clockStream s).notices = s.notices ∧
      (clockStream s).resetHeld = s.resetHeld ∧ (clockStream s).choice = s.choice ∧
      (clockStream s).pending = s.pending := by
  simp [clockStream]

@[simp] theorem respond_frame (r : Reply) (d : List Byte) (s : State) :
    (respond r d s).li = s.li ∧ (respond r d s).fu = s.fu ∧ (respond r d s).ac = s.ac ∧
      (respond r d s).peers = s.peers ∧ (respond r d s).te = s.te ∧ (respond r d s).re = s.re ∧
      (respond r d s).freeBlocks = s.freeBlocks ∧ (respond r d s).notices = s.notices ∧
      (respond r d s).resetHeld = s.resetHeld ∧ (respond r d s).choice = s.choice ∧
      (respond r d s).pending = s.pending := by
  simp [respond]

@[simp] theorem takePayload_frame (b : Byte) (s : State) :
    (takePayload b s).li = s.li ∧ (takePayload b s).fu = s.fu ∧ (takePayload b s).ac = s.ac ∧
      (takePayload b s).peers = s.peers ∧ (takePayload b s).te = s.te ∧ (takePayload b s).re = s.re ∧
      (takePayload b s).freeBlocks = s.freeBlocks ∧ (takePayload b s).notices = s.notices ∧
      (takePayload b s).resetHeld = s.resetHeld ∧ (takePayload b s).choice = s.choice ∧
      (takePayload b s).pending = s.pending := by
  simp [takePayload]

@[simp] theorem closeTransaction_frame(s : State) :
    (closeTransaction s).li = s.li ∧ (closeTransaction s).fu = s.fu ∧ (closeTransaction s).ac = s.ac ∧
      (closeTransaction s).peers = s.peers ∧ (closeTransaction s).te = s.te ∧ (closeTransaction s).re = s.re ∧
      (closeTransaction s).freeBlocks = s.freeBlocks ∧ (closeTransaction s).notices = s.notices ∧
      (closeTransaction s).resetHeld = s.resetHeld ∧ (closeTransaction s).choice = s.choice ∧
      (closeTransaction s).pending = s.pending := by
  simp [closeTransaction]

@[simp] theorem beginSensing_frame(s : State) :
    (beginSensing s).fu = s.fu ∧ (beginSensing s).peers = s.peers ∧ (beginSensing s).te = s.te ∧
      (beginSensing s).re = s.re ∧ (beginSensing s).freeBlocks = s.freeBlocks ∧ (beginSensing s).hp = s.hp ∧
      (beginSensing s).notices = s.notices ∧ (beginSensing s).resetHeld = s.resetHeld ∧
      (beginSensing s).choice = s.choice ∧ (beginSensing s).pending = s.pending := by
  simp only [beginSensing]; repeat' split
  all_goals simp

@[simp] theorem joinLine_frame(s : State) :
    (joinLine s).te = s.te ∧ (joinLine s).freeBlocks = s.freeBlocks ∧ (joinLine s).hp = s.hp ∧
      (joinLine s).notices = s.notices ∧ (joinLine s).resetHeld = s.resetHeld ∧ (joinLine s).choice = s.choice ∧
      (joinLine s).pending = s.pending := by
  simp [joinLine]

@[simp] theorem leaveLine_frame(s : State) :
    (leaveLine s).hp = s.hp ∧ (leaveLine s).notices = s.notices ∧ (leaveLine s).resetHeld = s.resetHeld ∧
      (leaveLine s).choice = s.choice ∧ (leaveLine s).pending = s.pending := by
  unfold leaveLine; repeat' split
  all_goals simp

@[simp] theorem openRequest_frame (o : OpenSubmit) (s : State) :
    (openRequest o s).li = s.li ∧ (openRequest o s).fu = s.fu ∧ (openRequest o s).ac = s.ac ∧
      (openRequest o s).peers = s.peers ∧ (openRequest o s).te = s.te ∧ (openRequest o s).re = s.re ∧
      (openRequest o s).notices = s.notices ∧ (openRequest o s).resetHeld = s.resetHeld ∧
      (openRequest o s).choice = s.choice ∧ (openRequest o s).pending = s.pending := by
  simp [openRequest]

@[simp] theorem beginTransaction_frame(s : State) :
    (beginTransaction s).li = s.li ∧ (beginTransaction s).fu = s.fu ∧ (beginTransaction s).ac = s.ac ∧
      (beginTransaction s).peers = s.peers ∧ (beginTransaction s).te = s.te ∧ (beginTransaction s).re = s.re ∧
      (beginTransaction s).freeBlocks = s.freeBlocks ∧ (beginTransaction s).notices = s.notices ∧
      (beginTransaction s).resetHeld = s.resetHeld ∧ (beginTransaction s).choice = s.choice ∧
      (beginTransaction s).pending = s.pending := by
  unfold beginTransaction; repeat' split
  all_goals simp

@[simp] theorem endSubmit_frame (o : OpenSubmit) (s : State) :
    (endSubmit o s).fu = s.fu ∧ (endSubmit o s).peers = s.peers ∧ (endSubmit o s).re = s.re ∧
      (endSubmit o s).notices = s.notices ∧ (endSubmit o s).resetHeld = s.resetHeld ∧
      (endSubmit o s).choice = s.choice ∧ (endSubmit o s).pending = s.pending := by
  simp only [endSubmit]; repeat' split
  all_goals simp

end Sys2Proof.Machine
end

