-- ==== Sys2Proof/Laws/Ops.lean ====
section
/-! SUPPORT. What the shared operations do, each in one lemma that later proofs cite in place of the definition: the Peer
Table, the transmit queue, the notice queue, the order list, the block counts and the passing of time. -/

namespace Sys2Proof.Machine

/-! ### What the updates of part of a block write -/

@[simp] theorem onDeframer_fu (f : Deframer → Deframer) (s : State) :
    (onDeframer f s).fu = { s.fu with deframer := f s.fu.deframer } := rfl
@[simp] theorem setFramer_fu (x : Framer) (s : State) : (setFramer x s).fu = { s.fu with framer := x } := rfl
@[simp] theorem setWindow_fu (x : Window) (s : State) : (setWindow x s).fu = { s.fu with window := x } := rfl
@[simp] theorem quietDeframer_fu (s : State) : (quietDeframer s).fu = { s.fu with deframer := Deframer.initial } := rfl
@[simp] theorem discardCandidate_fu (s : State) :
    (discardCandidate s).fu = { s.fu with deframer := { s.fu.deframer with phase := .discard } } := rfl
@[simp] theorem setStation_ac (x : StationState) (s : State) : (setStation x s).ac = { s.ac with station := x } := rfl
@[simp] theorem onTracker_ac (f : RoundTracker → RoundTracker) (s : State) :
    (onTracker f s).ac = { s.ac with tracker := f s.ac.tracker } := rfl
@[simp] theorem onAccess_ac (f : AccessRecord → AccessRecord) (s : State) :
    (onAccess f s).ac = { s.ac with tracker := { s.ac.tracker with access := f s.ac.tracker.access } } := rfl
@[simp] theorem onOrder_ac (f : List Nat → List Nat) (s : State) :
    (onOrder f s).ac = { s.ac with order := f s.ac.order } := rfl
@[simp] theorem setStaging_re (x : Option Staging) (s : State) : (setStaging x s).re = { s.re with staging := x } := rfl
@[simp] theorem raise_notices (k : NoticeKind) (a : Option Nat) (d : Option ErrorKind) (s : State) :
    (raise k a d s).notices = addNotice (underRead s) { kind := k, subject := a, detail := d } s.notices := rfl
@[simp] theorem frameError_notices (k : ErrorKind) (a : Option Nat) (s : State) :
    (frameError k a s).notices =
      addNotice (underRead s) { kind := .frameError, subject := a, detail := some k } s.notices := rfl
@[simp] theorem updateEntry_te (tag : Tag) (f : TxEntry → TxEntry) (s : State) :
    (updateEntry tag f s).te = { s.te with queue := s.te.queue.map fun e => if e.tag == tag then f e else e } := rfl
@[simp] theorem startTransmission_li (o : Owner) (l : List Bool) (s : State) :
    (startTransmission o l s).li =
      { s.li with
        tx := some { owner := o, symbols := l, start := s.li.time }
        stuckTimer := 0
        burst := s.li.burst.map (Burst.drivenFrom s.li.time) } := rfl
@[simp] theorem releaseDriver_li (s : State) : (releaseDriver s).li = { s.li with tx := none, stuckTimer := 0 } := rfl
@[simp] theorem setHeld_li (x : Bool) (s : State) :
    (setHeld x s).li = { s.li with burst := s.li.burst.map fun b => { b with held := x } } := rfl
@[simp] theorem setClaim_ac (c : Option OwnClaim) (s : State) : (setClaim c s).ac =
    { s.ac with tracker := { s.ac.tracker with access := { s.ac.tracker.access with claim := c } } } := rfl
@[simp] theorem setProgress_ac (p : Progress) (s : State) : (setProgress p s).ac =
    { s.ac with tracker := { s.ac.tracker with access := { s.ac.tracker.access with
      claim := s.ac.tracker.access.claim.map fun c => { c with progress := p } } } } := rfl
@[simp] theorem reportFrame_ac (r : FrameReport) (s : State) : (reportFrame r s).ac =
    { s.ac with tracker := { s.ac.tracker with access := { s.ac.tracker.access with
      report := if s.ac.tracker.access.following then r else s.ac.tracker.access.report } } } := rfl
@[simp] theorem nextRound_ac (n : Nat) (s : State) : (nextRound n s).ac =
    { s.ac with tracker := { s.ac.tracker with
      phase := .round, roundStart := some n, guard := none, slotTaken := false } } := rfl
@[simp] theorem startRound_ac (n : Nat) (s : State) : (startRound n s).ac =
    { s.ac with tracker := { s.ac.tracker with
      phase := .round, roundStart := some n, guard := none, slotTaken := false, access := AccessRecord.empty } } := rfl
@[simp] theorem takeCommand_hp (c : Option Command) (s : State) : (takeCommand c s).hp =
    { s.hp with sdo := some (s.hp.summary.getD 0), command := c, parameters := [] } := rfl
@[simp] theorem takeParameter_hp (b : Byte) (s : State) : (takeParameter b s).hp =
    { s.hp with sdo := some 0, parameters := s.hp.parameters ++ [b] } := rfl
@[simp] theorem respond_hp (r : Reply) (d : List Byte) (s : State) : (respond r d s).hp =
    { s.hp with transaction := .decided, stream := some { reply := r, data := d, clocked := 0 } } := rfl
@[simp] theorem takePayload_hp (b : Byte) (s : State) : (takePayload b s).hp =
    { s.hp with submit := s.hp.submit.map fun o => { o with received := o.received ++ [b] } } := rfl
@[simp] theorem closeTransaction_hp (s : State) : (closeTransaction s).hp = HostPort.between s.hp.mask := rfl

/-- What the end of sensing writes (R3, R34, R126). -/
@[simp] theorem endSensing_writes (s : State) :
    (endSensing s).li = { s.li with sensing := .off, tx := none, burst := none, stuckTimer := 0 } ∧
      (endSensing s).fu = FrameUnit.initial ∧ (endSensing s).ac = { s.ac with tracker := RoundTracker.initial } ∧
      (endSensing s).re = { s.re with staging := none } := ⟨rfl, rfl, rfl, rfl⟩

/-- What entry to OFFLINE writes (R84). -/
@[simp] theorem enterOffline_writes (s : State) :
    (enterOffline s).li = { s.li with sensing := .off, tx := none, burst := none, stuckTimer := 0 } ∧
      (enterOffline s).fu = FrameUnit.initial ∧
      (enterOffline s).ac =
        { s.ac with station := .offline, restartPending := false, tracker := RoundTracker.initial } ∧
      (enterOffline s).re = { s.re with staging := none } := by
  simp [enterOffline]

/-- What entry to HALTED writes (R60, R85). -/
@[simp] theorem halt_writes (s : State) :
    (halt s).li = { s.li with sensing := .off, tx := none, burst := none, stuckTimer := 0 } ∧
      (halt s).fu = FrameUnit.initial ∧
      (halt s).ac = { s.ac with station := .halted, tracker := RoundTracker.initial } ∧
      (halt s).re = { s.re with staging := none } ∧
      (halt s).notices = addNotice (underRead s)
        { kind := .addressConflict, subject := some (ownAddress s), detail := none } s.notices := by
  simp [halt]

/-! ### The Peer Table -/

/-- Two states with the same table have the same entries. -/
theorem peerEntry_congr {s t : State} (h : t.peers = s.peers) (a : Nat) : peerEntry t a = peerEntry s a := by
  simp [peerEntry, h]

/-- An address above 31 has no entry of its own and reads as the initial one. -/
theorem peerEntry_outside (s : State) {a : Nat} (h : 32 ≤ a) : peerEntry s a = PeerEntry.initial := by
  simp [peerEntry, show ¬a < 32 by omega]

/-- The entry just changed. -/
@[simp] theorem peerEntry_updatePeer_self (s : State) (f : PeerEntry → PeerEntry) {a : Nat} (h : a < 32) :
    peerEntry (updatePeer a f s) a = f (peerEntry s a) := by
  simp [updatePeer, peerEntry, onPeers, h]

/-- Every other entry. -/
theorem peerEntry_updatePeer_other (s : State) (f : PeerEntry → PeerEntry) {a b : Nat} (h : b ≠ a) :
    peerEntry (updatePeer a f s) b = peerEntry s b := by
  simp only [updatePeer, peerEntry, onPeers]
  by_cases hb : b < 32
  · simp [hb, Ne.symm h]
  · simp [hb]

/-- An update beyond the table changes nothing. -/
theorem updatePeer_outside (s : State) (f : PeerEntry → PeerEntry) {a : Nat} (h : 32 ≤ a) : updatePeer a f s = s := by
  have hv : s.peers.setIfInBounds a (f (peerEntry s a)) = s.peers := by
    ext i hi
    simp [show a ≠ i by omega]
  simp [updatePeer, onPeers, hv]

/-- Stopping the time base freezes each hold-off and leaves the rest of each entry (R100). -/
theorem peerEntry_freezeHoldOffs (s : State) (a : Nat) :
    peerEntry (freezeHoldOffs s) a = PeerEntry.freeze s.li.time (peerEntry s a) := by
  by_cases h : a < 32 <;> simp [freezeHoldOffs, peerEntry, onPeers, h, PeerEntry.freeze, PeerEntry.initial]

/-! ### The passing of time -/

/-- In QUIET no bit time at all changes nothing. -/
@[simp] theorem passQuiet_zero (s : State) : passQuiet 0 s = s := by
  simp [passQuiet, onTracker, onAc, onLi]

/-- A burst that goes on for no bit time at all changes nothing, with the stuck timer in its range and the driver
RELEASED. -/
theorem passDriven_zero {s : State} (h : s.li.stuckTimer ≤ stuckLimit) (hx : s.li.tx = none) : passDriven 0 s = s := by
  have hb : s.li.burst.map (Burst.lengthen 0) = s.li.burst := by cases s.li.burst <;> rfl
  have ht : s.li.tx.isSome = false := by simp [hx]
  simp [passDriven, onLi, hb, ht, Nat.min_eq_right h]

/-- No bit time at all changes nothing, with the stuck timer in its range and the driver RELEASED. -/
theorem passTime_zero {s : State} (h : s.li.stuckTimer ≤ stuckLimit) (hx : s.li.tx = none) : passTime 0 s = s := by
  unfold passTime
  split <;> simp [passDriven_zero h hx]

/-- The time base runs by the bit times that pass, while the station senses. -/
theorem passTime_time (n : Nat) {s : State} (h : s.li.sensing ≠ .off) : (passTime n s).li.time = s.li.time + n := by
  unfold passTime
  split <;> simp_all [passQuiet, passDriven]

/-- The passing of time leaves the sensing state and the transmission. -/
@[simp] theorem passTime_keeps (n : Nat) (s : State) :
    (passTime n s).li.sensing = s.li.sensing ∧ (passTime n s).li.tx = s.li.tx ∧
      (passTime n s).li.lineDriven = s.li.lineDriven ∧ (passTime n s).ac.station = s.ac.station ∧
      (passTime n s).ac.setup = s.ac.setup ∧ (passTime n s).ac.order = s.ac.order ∧
      (passTime n s).ac.restartPending = s.ac.restartPending ∧ (passTime n s).ac.collisions = s.ac.collisions ∧
      (passTime n s).ac.tracker.phase = s.ac.tracker.phase ∧ (passTime n s).ac.tracker.access = s.ac.tracker.access ∧
      (passTime n s).ac.tracker.unclaimed = s.ac.tracker.unclaimed ∧
      (passTime n s).ac.tracker.roundStart = s.ac.tracker.roundStart ∧
      (passTime n s).ac.tracker.activitySeen = s.ac.tracker.activitySeen ∧
      (passTime n s).ac.tracker.slotTaken = s.ac.tracker.slotTaken := by
  unfold passTime
  split <;> simp [passQuiet, passDriven]

/-! ### The transmit queue -/

/-- The entry found is in the queue and carries the tag. -/
theorem findEntry_mem {s : State} {tag : Tag} {e : TxEntry} (h : findEntry s tag = some e) :
    e ∈ s.te.queue ∧ e.tag = tag :=
  ⟨List.mem_of_find?_eq_some h, by simpa using List.find?_some h⟩

/-- Finishing an entry that stands in the queue (R117). -/
theorem finishEntry_found {s : State} {tag : Tag} {e : TxEntry} (h : findEntry s tag = some e)
    (outcome : MessageOutcome) (note : Bool) :
    (finishEntry tag outcome note s).te =
        { queue := s.te.queue.eraseP (·.tag == tag), completions := s.te.completions ++ [e.completion outcome note] } ∧
      (finishEntry tag outcome note s).freeBlocks = s.freeBlocks + blocksFor e.length ∧
      (finishEntry tag outcome note s).peers = (advanceSequence e s).peers := by
  simp only [finishEntry, h]
  refine ⟨by simp, by simp, ?_⟩
  unfold advanceSequence
  split <;> simp [updatePeer, peerEntry]

/-- Finishing a tag that no entry carries changes nothing. -/
theorem finishEntry_absent {s : State} {tag : Tag} (h : findEntry s tag = none) (outcome : MessageOutcome)
    (note : Bool) : finishEntry tag outcome note s = s := by
  simp [finishEntry, h]

/-- The peer entry after a finishing entry has advanced its destination's sequence (R94). -/
theorem peerEntry_advanceSequence (e : TxEntry) (s : State) {a : Nat} (h : a < 32) :
    peerEntry (advanceSequence e s) a = { peerEntry s a with
      nextSend := (peerEntry s a).nextSend + if e.destination = .peer a ∧ e.sequence ≠ none then 1 else 0 } := by
  unfold advanceSequence
  split
  · rename_i b q hd hq
    by_cases hb : a = b
    · subst hb; simp [h, hd, hq]
    · rw [peerEntry_updatePeer_other _ _ hb]; simp [hd, Ne.symm hb]
  · rename_i hn
    have : ¬(e.destination = .peer a ∧ e.sequence ≠ none) := by
      rintro ⟨h1, h2⟩
      obtain ⟨q, hq⟩ := Option.ne_none_iff_exists'.mp h2
      exact hn a q h1 hq
    simp [this]

/-- The flush: every entry leaves the queue, oldest first, each with its WITHDRAWN record (R123). -/
theorem flushQueue_te (s : State) :
    (flushQueue s).te =
      { queue := [], completions := s.te.completions ++ s.te.queue.map (·.completion .withdrawn false) } := by
  unfold flushQueue
  generalize hq : s.te.queue = q
  induction q generalizing s with
  | nil => cases ht : s.te; simp_all
  | cons e q ih =>
    have hf : findEntry s e.tag = some e := by simp [findEntry, hq]
    obtain ⟨hte, -, -⟩ := finishEntry_found hf .withdrawn false
    have hq' : (finishEntry e.tag .withdrawn false s).te.queue = q := by simp [hte, hq]
    simpa [hte] using ih _ hq'

/-- The flush returns the blocks of every entry (R123, R149). -/
theorem flushQueue_freeBlocks (s : State) : (flushQueue s).freeBlocks = s.freeBlocks + queueBlocks s := by
  unfold flushQueue queueBlocks
  generalize hq : s.te.queue = q
  induction q generalizing s with
  | nil => simp
  | cons e q ih =>
    have hf : findEntry s e.tag = some e := by simp [findEntry, hq]
    obtain ⟨hte, hfree, -⟩ := finishEntry_found hf .withdrawn false
    have hq' : (finishEntry e.tag .withdrawn false s).te.queue = q := by simp [hte, hq]
    simp [ih _ hq', hfree, Nat.add_assoc]

/-- The flush advances the next send sequence of a peer once for each entry to it that holds a sequence (R94, R123). -/
theorem peerEntry_flushQueue (s : State) {a : Nat} (h : a < 32) :
    peerEntry (flushQueue s) a = { peerEntry s a with
      nextSend := (peerEntry s a).nextSend
        + BitVec.ofNat 4 (s.te.queue.countP fun e => e.destination = .peer a ∧ e.sequence ≠ none) } := by
  unfold flushQueue
  generalize hq : s.te.queue = q
  induction q generalizing s with
  | nil => simp
  | cons e q ih =>
    have hf : findEntry s e.tag = some e := by simp [findEntry, hq]
    obtain ⟨hte, -, hp⟩ := finishEntry_found hf .withdrawn false
    have hq' : (finishEntry e.tag .withdrawn false s).te.queue = q := by simp [hte, hq]
    rw [List.foldl_cons, ih _ hq', peerEntry_congr hp, peerEntry_advanceSequence e s h]
    by_cases hc : e.destination = .peer a ∧ e.sequence ≠ none
    · simp [hc, BitVec.ofNat_add, add_comm, add_left_comm, BitVec.add_assoc]
    · simp [hc]

/-- Selection reads the queue and the Peer Table only (R108, R109). -/
theorem selectEntry_congr {s t : State} (hq : t.te = s.te) (hp : t.peers = s.peers) :
    selectEntry t = selectEntry s := by
  have he : ∀ older e, eligible t older e = eligible s older e := by
    intro older e
    unfold eligible heldOff
    cases e.destination <;> simp [peerEntry, hp]
  have hs : ∀ l older, selectFrom t older l = selectFrom s older l := by
    intro l
    induction l with
    | nil => intro older; rfl
    | cons e rest ih => intro older; simp [selectFrom, he, ih]
  simp [selectEntry, hs, hq]

/-! ### Notices and the order list -/

/-- Whether a notice is under read is a matter of the Host Port alone (R177). -/
theorem underRead_congr {s t : State} (h : t.hp = s.hp) : underRead t = underRead s := by
  simp [underRead, h]

/-- The newest record of a queue is its last. -/
theorem updateNewest_append (f : NoticeRecord → NoticeRecord) (q : List NoticeRecord) (r : NoticeRecord) :
    updateNewest f (q ++ [r]) = q ++ [f r] := by
  induction q with
  | nil => rfl
  | cons a q ih => cases q <;> simp_all [updateNewest]

/-- A change of the newest record leaves the number of records. -/
@[simp] theorem updateNewest_length (f : NoticeRecord → NoticeRecord) (q : List NoticeRecord) :
    (updateNewest f q).length = q.length := by
  induction q with
  | nil => rfl
  | cons a q ih => cases q <;> simp_all [updateNewest]

/-- A notice queue grows by one record at most, and never above 16 (R175). -/
theorem addNotice_length {reading : Bool} {n : Notice} {q : List NoticeRecord} (h : q.length ≤ 16) :
    (addNotice reading n q).length ≤ 16 := by
  unfold addNotice
  repeat' split
  · simpa using h
  · simp; omega
  · simpa using h

/-! ### Attempts that end early -/

/-- The aborted attempt of an entry (R110, R111). -/
theorem abortAttempt_found {s : State} {tag : Tag} {e : TxEntry} (h : findEntry s tag = some e) :
    (e.cancelPending = false → (abortAttempt tag s).te = { s.te with queue := s.te.queue.map fun y =>
        if y.tag = tag then { y with state := .waiting } else y } ∧ (abortAttempt tag s).freeBlocks = s.freeBlocks) ∧
      (e.cancelPending = true → Finished e .cancelled false e.lastAnswer s (abortAttempt tag s)) := by
  obtain ⟨f1, f2, -⟩ := finishEntry_found h .cancelled false
  refine ⟨fun hc => ?_, fun hc => ?_⟩
  · simp [abortAttempt, h, hc]
  · simp [abortAttempt, h, hc, Finished, f1, f2, (findEntry_mem h).2, TxEntry.completion, blocksFor]

/-- A collision depends on the claim, the AC, the queue, the pool, the notices and the Host Port alone. -/
theorem Collided.of_eq {c : OwnClaim} {s q t : State} (h : Collided c q t) (hte : q.te = s.te)
    (hfree : q.freeBlocks = s.freeBlocks) (hn : q.notices = s.notices) (hhp : q.hp = s.hp)
    (hset : q.ac.setup = s.ac.setup) (hcol : q.ac.collisions = s.ac.collisions)
    (hst : q.ac.station = s.ac.station) : Collided c s t := by
  simpa [Collided, findEntry, Finished, hte, hfree, hn, hset, hcol, hst, underRead_congr hhp] using h

/-- What a mismatch of an own frame, or its refusal, does (R59, R73). -/
theorem frameMismatch_collided {c : OwnClaim} {s : State} (hc : s.ac.tracker.access.claim = some c)
    (h3 : s.ac.collisions ≤ 3) : Collided c s (frameMismatch s) := by
  obtain ⟨r, hr⟩ : ∃ r, r = (match c.content with
      | .entry tag => abortAttempt tag (setProgress .mismatched s)
      | .orderReset => setProgress .mismatched s
      | .wake => setProgress .mismatched s) := ⟨_, rfl⟩
  have hac : r.ac = (setProgress .mismatched s).ac := by rw [hr]; split <;> simp
  have hn : r.notices = s.notices := by rw [hr]; split <;> simp
  have hu : underRead r = underRead s := underRead_congr (by rw [hr]; split <;> simp)
  have hte : ((∀ tag, c.content ≠ .entry tag) → r.te = s.te ∧ r.freeBlocks = s.freeBlocks) ∧
      (∀ tag e, c.content = .entry tag → findEntry s tag = some e →
        (e.cancelPending = false → r.te = { s.te with queue := s.te.queue.map fun y =>
            if y.tag = tag then { y with state := .waiting } else y } ∧ r.freeBlocks = s.freeBlocks) ∧
        (e.cancelPending = true → Finished e .cancelled false e.lastAnswer s r)) := by
    refine ⟨fun h => ?_, fun tag e h hf => ?_⟩
    · cases hcc : c.content <;> simp_all
    · have hf' : findEntry (setProgress .mismatched s) tag = some e := by simpa [findEntry] using hf
      simpa [hr, h, Finished] using abortAttempt_found hf'
  have ef : frameMismatch s = (if addressSlotClaim s c then
      let s4 := onAc (fun a => { a with collisions := min 4 (a.collisions + 1) }) (raise .collision none none r)
      if s4.ac.collisions == 4 then halt s4 else s4
    else raise .collision none none r) := by
    cases hcc : c.content <;> simp only [frameMismatch, hc, hr, hcc]
  have as : addressSlotClaim s c = true ↔ (c.content = .orderReset ∧ ∃ k, c.slot = some k ∧ k < s.ac.setup.roster) := by
    cases h : c.slot with
    | none => simp [addressSlotClaim, h]
    | some k =>
      simp only [addressSlotClaim, roster, h]
      by_cases hk : k < s.ac.setup.roster <;> simp [hk]
  rw [ef]
  by_cases ha : addressSlotClaim s c = true
  · have ha' := as.mp ha
    by_cases h4 : s.ac.collisions = 3
    · refine ⟨fun h => absurd ha' h, fun _ h => by omega, fun _ _ => ?_, ?_, ?_⟩
      · simp [ha, hac, h4, hn, hu, ownAddress, underRead_congr (s := r), State.reset, AccessController.initial]
      · simpa [ha, hac, h4] using hte.1
      · simpa [ha, hac, h4, Finished] using hte.2
    · have h5 : ¬ min 4 (s.ac.collisions + 1) = 4 := by omega
      refine ⟨fun h => absurd ha' h, fun _ h => ?_, fun _ h => absurd h h4, ?_, ?_⟩
      · have : min 4 (s.ac.collisions + 1) = s.ac.collisions + 1 := by omega
        simp [ha, hac, this, show ¬ s.ac.collisions = 3 from h4, hc, hn, hu]
      · simpa [ha, hac, h5] using hte.1
      · simpa [ha, hac, h5, Finished] using hte.2
  · refine ⟨fun _ => ?_, fun h => absurd h (fun h => ha (as.mpr h)), fun h => absurd h (fun h => ha (as.mpr h)), ?_, ?_⟩
    · simp [ha, hac, hc, hn, hu]
    · simpa [ha] using hte.1
    · simpa [ha, Finished] using hte.2

/-! ### The outcome of an attempt -/

/-- An entry that is changed in place is found by its tag. -/
theorem find_map_tag {q : List TxEntry} {tag : Tag} {e : TxEntry} (h : q.find? (·.tag == tag) = some e)
    {f : TxEntry → TxEntry} (hf : ∀ x, (f x).tag = x.tag) :
    (q.map fun x => if x.tag == tag then f x else x).find? (·.tag == tag) = some (f e) := by
  induction q with
  | nil => simp at h
  | cons x q ih =>
    by_cases hx : x.tag = tag
    · simp_all
    · simp_all

/-- A change of an entry in place does not matter once the entry is gone. -/
theorem eraseP_map_tag {q : List TxEntry} (hd : (q.map (·.tag)).Nodup) {tag : Tag} {f : TxEntry → TxEntry}
    (hf : ∀ x, (f x).tag = x.tag) :
    (q.map fun x => if x.tag == tag then f x else x).eraseP (·.tag == tag) = q.eraseP (·.tag == tag) := by
  induction q with
  | nil => rfl
  | cons x q ih =>
    simp only [List.map_cons, List.nodup_cons] at hd
    by_cases hx : x.tag = tag
    · have : ∀ y ∈ q, y.tag ≠ tag := fun y hy h => hd.1 (List.mem_map.mpr ⟨y, hy, h.trans hx.symm⟩)
      have hm : (q.map fun x => if x.tag == tag then f x else x) = q := by
        conv => rhs; rw [← List.map_id q]
        apply List.map_congr_left; intro y hy; simp [this y hy]
      simpa [hx, hf] using hm
    · simpa [hx] using ih hd.2

/-- The last answer code of an entry after a judgement. -/
def TxEntry.answered (e : TxEntry) (judged : Option AnswerCode) : TxEntry :=
  { e with lastAnswer := match judged with | some code => some code | none => e.lastAnswer }

/-- What a judgement does to the queue and to the presence of the destination before the entry ends (R114). -/
theorem recordJudgement_spec (s : State) (tag : Tag) (a : Nat) (judged : Option AnswerCode) :
    (recordJudgement tag a judged s).te =
        { s.te with queue := s.te.queue.map fun x => if x.tag == tag then x.answered judged else x } ∧
      (recordJudgement tag a judged s).freeBlocks = s.freeBlocks ∧
      (judged = none → a < 32 → (peerEntry s a).unanswered ≤ 3 →
        ((peerEntry s a).unanswered = 3 → (peerEntry s a).presence = .silent) →
        ((peerEntry (recordJudgement tag a judged s) a).presence = .silent ↔
          2 ≤ (peerEntry s a).unanswered ∨ (peerEntry s a).presence = .silent)) := by
  cases judged with
  | none =>
    have hm : (s.te.queue.map fun x => if x.tag == tag then x.answered none else x) = s.te.queue := by
      conv => rhs; rw [← List.map_id s.te.queue]
      apply List.map_congr_left; intro y hy; simp [TxEntry.answered]
    refine ⟨?_, by simp [recordJudgement], ?_⟩
    · rw [hm]; simp [recordJudgement]
    · intro _ ha h3 hs
      simp only [recordJudgement, peerUnanswered]
      split
      · rename_i hc
        simp at hc
        rw [peerEntry_congr (s := updatePeer a (fun e => { e with presence := .silent })
          (updatePeer a (fun e => { e with unanswered := min 3 (e.unanswered + 1) }) s)) (by simp)]
        simp [ha, hc]
      · rename_i hc
        simp at hc
        simp [ha]
        intro h
        by_cases h2 : (peerEntry s a).unanswered = 2
        · exact hc h2
        · exact hs (by omega)
  | some code =>
    refine ⟨?_, ?_, by simp⟩
    · simp only [recordJudgement]
      split <;> simp [TxEntry.answered, setHoldOff, peerAnswered]
    · simp only [recordJudgement]
      split <;> simp [setHoldOff, peerAnswered]

/-- How an attempt whose frame passed ends: the outcome that is final, or none when the entry returns (R114, R121). -/
def attemptResult (s : State) (e : TxEntry) (silent : Bool) (judged : Option AnswerCode) :
    Option (MessageOutcome × Bool) :=
  match e.destination with
  | .all => some (.sent, false)
  | .peer _ =>
    match finalOutcome s.ac.setup.retry e.attempts silent judged with
    | some o => some o
    | none => if e.cancelPending then some (.cancelled, false) else none

/-- What the outcome of an attempt does to its entry (R113 to R115, R121). -/
theorem applyOutcome_spec {s : State} {tag : Tag} {e : TxEntry} (h : findEntry s tag = some e)
    (hd : (s.te.queue.map (·.tag)).Nodup) (judged : Option AnswerCode) (silent : Bool) (answer : Option AnswerCode)
    (hans : answer = (match e.destination with | .all => e | .peer _ => e.answered judged).lastAnswer)
    (hsil : ∀ a, e.destination = .peer a → judged = none →
      ((peerEntry (recordJudgement tag a judged s) a).presence = .silent ↔ silent = true)) :
    match attemptResult s e silent judged with
    | some (outcome, note) => Finished e outcome note answer s (applyOutcome tag judged s)
    | none => BackToWaiting e answer s (applyOutcome tag judged s) := by
  have htag := (findEntry_mem h).2
  cases hdest : e.destination with
  | all =>
    obtain ⟨f1, f2, -⟩ := finishEntry_found h .sent false
    simp [attemptResult, hdest, applyOutcome, h, Finished, f1, f2, htag, TxEntry.completion, blocksFor, hans]
  | peer a =>
    obtain ⟨r1, r2, -⟩ := recordJudgement_spec s tag a judged
    have hf : findEntry (recordJudgement tag a judged s) tag = some (e.answered judged) := by
      simp only [findEntry, r1]; exact find_map_tag h (by intro x; rfl)
    have hfo : finalOutcome s.ac.setup.retry e.attempts
        ((peerEntry (recordJudgement tag a judged s) a).presence == .silent) judged =
          finalOutcome s.ac.setup.retry e.attempts silent judged := by
      cases judged with
      | some c => cases c <;> rfl
      | none =>
        have := hsil a hdest rfl
        cases silent <;> simp_all [finalOutcome]
    have fin : ∀ o n, Finished e o n answer s (finishEntry tag o n (recordJudgement tag a judged s)) := by
      intro o n
      obtain ⟨f1, f2, -⟩ := finishEntry_found hf o n
      refine ⟨?_, ?_, ?_⟩
      · simp [f1, r1, htag]; simpa using eraseP_map_tag hd (f := fun x => x.answered judged) (by intro x; rfl)
      · simp [f2, blocksFor, TxEntry.answered]
      · simp [f1, r1, TxEntry.completion, hans, hdest, TxEntry.answered]
    simp only [attemptResult, hdest, applyOutcome, h, hfo]
    cases hfo2 : finalOutcome s.ac.setup.retry e.attempts silent judged with
    | some o => obtain ⟨o, n⟩ := o; exact fin o n
    | none =>
      by_cases hc : e.cancelPending = true
      · simp only [hc, if_true]; exact fin _ _
      · simp only [hc]
        refine ⟨?_, by simp [r1], by simp⟩
        simp [r1, htag]
        have hm := (findEntry_mem h).1
        intro x hx
        by_cases hxt : x.tag = tag
        · have hxe : x = e := List.inj_on_of_nodup_map hd hx hm (hxt.trans htag.symm)
          simp [hxe, htag, TxEntry.answered, hans, hdest]
        · simp [hxt]

/-- A change of a transmit entry leaves the Peer Table. -/
@[simp] theorem peerEntry_updateEntry (tag : Tag) (f : TxEntry → TxEntry) (s : State) (x : Nat) :
    peerEntry (updateEntry tag f s) x = peerEntry s x := peerEntry_congr (by simp) x

/-- An attempt went unanswered that takes its peer to SILENT (R91). -/
abbrev PeerEntry.Silenced (p : PeerEntry) (judged : Option AnswerCode) : Prop :=
  judged = none ∧ p.unanswered = 2 ∧ p.presence ≠ .silent

/-- The entry of a destination after the judgement of an attempt, with the expiry time of a hold-off (R91, R98, R114). -/
def PeerEntry.judged (p : PeerEntry) (judged : Option AnswerCode) (expiry : Nat) : PeerEntry :=
  { p with
    unanswered := if judged = none then min 3 (p.unanswered + 1) else 0
    presence := if p.Silenced judged then .silent else p.presence
    holdOff := if judged = some .full then some (.running expiry) else p.holdOff }

/-- The notices after the judgement of an attempt (R91). -/
def noticesJudged (a : Nat) (judged : Option AnswerCode) (s : State) : List NoticeRecord :=
  if (peerEntry s a).Silenced judged then
    addNotice (underRead s) { kind := .peerSilent, subject := some a, detail := none } s.notices
  else s.notices

/-- What a judgement does to the Peer Table and the notices (R91, R98, R114). -/
theorem recordJudgement_peers (s : State) (tag : Tag) {a : Nat} (ha : a < 32) (judged : Option AnswerCode) :
    (∀ x, peerEntry (recordJudgement tag a judged s) x =
      if x = a then (peerEntry s a).judged judged (s.li.time + s.ac.setup.holdOff * 256) else peerEntry s x) ∧
    (recordJudgement tag a judged s).notices = noticesJudged a judged s := by
  cases judged with
  | none =>
    simp only [recordJudgement, peerUnanswered, noticesJudged]
    by_cases h : (peerEntry s a).Silenced none
    · obtain ⟨-, h2, hp⟩ := h
      have hc : ((peerEntry s a).unanswered == 2 && (peerEntry s a).presence != .silent) = true := by simp [h2, hp]
      simp only [hc, if_true]
      refine ⟨fun x => ?_, by simp [h2, hp, underRead_congr (s := s)]⟩
      rw [peerEntry_congr (s := updatePeer a (fun e => { e with presence := .silent })
        (updatePeer a (fun e => { e with unanswered := min 3 (e.unanswered + 1) }) s)) (by simp)]
      by_cases hx : x = a
      · subst hx; simp [ha, PeerEntry.judged, h2, hp]
      · simp [peerEntry_updatePeer_other _ _ hx, hx]
    · have hc : ((peerEntry s a).unanswered == 2 && (peerEntry s a).presence != .silent) = false := by
        simpa using h
      simp only [hc, h, if_false]
      refine ⟨fun x => ?_, by simp⟩
      by_cases hx : x = a
      · subst hx; simp [ha, PeerEntry.judged, h]
      · simp [peerEntry_updatePeer_other _ _ hx, hx]
  | some code =>
    by_cases hf : code = .full
    · refine ⟨fun x => ?_, by simp [recordJudgement, noticesJudged, hf]⟩
      by_cases hx : x = a
      · subst hx; simp [recordJudgement, setHoldOff, ha, hf, peerAnswered, PeerEntry.judged]
      · simp [recordJudgement, setHoldOff, peerEntry_updatePeer_other _ _ hx, hx, hf, peerAnswered]
    · refine ⟨fun x => ?_, by simp [recordJudgement, noticesJudged, hf]⟩
      by_cases hx : x = a
      · subst hx; simp [recordJudgement, ha, hf, peerAnswered, PeerEntry.judged]
      · simp [recordJudgement, peerEntry_updatePeer_other _ _ hx, hx, hf, peerAnswered]

/-- An entry that finishes takes one place out of the queue, and its sequence goes on at its destination (R94, R117). -/
theorem finishEntry_peers {s : State} {tag : Tag} {e : TxEntry} (h : findEntry s tag = some e) {a : Nat}
    (hd : e.destination = .peer a) (ha : a < 32) (outcome : MessageOutcome) (note : Bool) :
    (finishEntry tag outcome note s).te.queue.length < s.te.queue.length ∧
      ∀ x, peerEntry (finishEntry tag outcome note s) x = if x = a then { peerEntry s a with
        nextSend := (peerEntry s a).nextSend + if e.sequence ≠ none then 1 else 0 } else peerEntry s x := by
  obtain ⟨f1, -, f3⟩ := finishEntry_found h outcome note
  have hm := (findEntry_mem h).1
  refine ⟨?_, fun x => ?_⟩
  · have hany : s.te.queue.any (·.tag == tag) = true :=
      List.any_eq_true.mpr ⟨e, hm, by simp [(findEntry_mem h).2]⟩
    have := List.length_pos_of_mem hm
    rw [f1, List.length_eraseP, if_pos hany]
    omega
  · rw [peerEntry_congr f3]
    by_cases hx : x < 32
    · rw [peerEntry_advanceSequence e s hx]
      by_cases hxa : x = a
      · simp [hd, hxa]
      · simp [hd, hxa, Ne.symm hxa]
    · have hxa : x ≠ a := by omega
      rw [if_neg hxa, peerEntry_outside _ (by omega), peerEntry_outside _ (by omega)]

/-- What the outcome of a unicast attempt does to the Peer Table and the notices (R91, R94, R98, R114). -/
theorem applyOutcome_peers {s : State} {tag : Tag} {e : TxEntry} (h : findEntry s tag = some e) {a : Nat}
    (hd : e.destination = .peer a) (ha : a < 32) (judged : Option AnswerCode) :
    let q := (peerEntry s a).judged judged (s.li.time + s.ac.setup.holdOff * 256)
    let t := applyOutcome tag judged s
    (∀ x, peerEntry t x = if x = a then { q with
      nextSend := q.nextSend + if t.te.queue.length < s.te.queue.length ∧ e.sequence ≠ none then 1 else 0 }
      else peerEntry s x) ∧
    t.notices = noticesJudged a judged s := by
  intro q t
  obtain ⟨r1, -, -⟩ := recordJudgement_spec s tag a judged
  obtain ⟨q1, q2⟩ := recordJudgement_peers s tag ha judged
  have hf : findEntry (recordJudgement tag a judged s) tag = some (e.answered judged) := by
    simp only [findEntry, r1]; exact find_map_tag h (by intro x; rfl)
  have hlen : (recordJudgement tag a judged s).te.queue.length = s.te.queue.length := by simp [r1]
  have finishing : ∀ o n, t = finishEntry tag o n (recordJudgement tag a judged s) →
      (∀ x, peerEntry t x = if x = a then { q with
        nextSend := q.nextSend + if t.te.queue.length < s.te.queue.length ∧ e.sequence ≠ none then 1 else 0 }
        else peerEntry s x) ∧ t.notices = noticesJudged a judged s := by
    intro o n ht
    obtain ⟨f1, f2⟩ := finishEntry_peers hf (by simpa [TxEntry.answered] using hd) ha o n
    rw [← ht, hlen] at f1
    rw [← ht] at f2
    refine ⟨fun x => ?_, by rw [ht]; simpa using q2⟩
    rw [f2 x, q1, q1, if_pos rfl]
    by_cases hx : x = a
    · by_cases hs : e.sequence = none <;> simp [hx, f1, q, TxEntry.answered, hs]
    · simp only [hx, if_false]
  have ht : t = applyOutcome tag judged s := rfl
  simp only [applyOutcome, h, hd] at ht
  split at ht
  · exact finishing _ _ ht
  · split at ht
    · exact finishing _ _ ht
    · refine ⟨fun x => ?_, by rw [ht]; simpa using q2⟩
      rw [ht, peerEntry_updateEntry, q1]
      by_cases hx : x = a <;> simp [hx, hlen, q]

/-! ### What several commands have in common -/

/-- What it takes for the AC to be unchanged outside its round tracker. -/
theorem orderKept_iff (s t : State) : OrderKept s t ↔ t.ac.station = s.ac.station ∧ t.ac.setup = s.ac.setup ∧
    t.ac.order = s.ac.order ∧ t.ac.restartPending = s.ac.restartPending ∧ t.ac.collisions = s.ac.collisions := by
  unfold OrderKept
  cases t.ac
  cases s.ac
  simp_all

/-- Bit times add up. -/
theorem passTime_add (m n : Nat) (s : State) : passTime n (passTime m s) = passTime (m + n) s := by
  cases h : s.li.sensing <;> simp [passTime, h]
  · simp only [passQuiet, onTracker, onAc, onLi]
    cases s.ac.tracker.guard <;> simp [Nat.add_assoc] <;> split <;> simp_all [Nat.add_assoc]
  · simp only [passDriven, onLi, h]
    cases s.li.burst <;> cases s.li.tx <;> simp [Burst.lengthen, Nat.add_assoc] <;> omega
  · simp only [passDriven, onLi, h]
    cases s.li.burst <;> cases s.li.tx <;> simp [Burst.lengthen, Nat.add_assoc]

/-- The outcome of an attempt touches queue, pool, Peer Table and notices, and closes the answer window (R45, R113). -/
theorem takeOutcome_keeps (s : State) :
    (takeOutcome s).ac = s.ac ∧ (takeOutcome s).li = s.li ∧ (takeOutcome s).hp = s.hp ∧
      (takeOutcome s).re = s.re ∧ (takeOutcome s).fu = { s.fu with window := .closed } := by
  refine ⟨by simp, by simp, by simp, by simp, ?_⟩
  simp only [takeOutcome]
  repeat' split
  all_goals simp

/-- An access end is what the AC does with the access, and then at most the start of a round (R45, R56 to R71). -/
theorem accessEnd_keeps (m : Nat) (s : State) :
    let t := accessEndAtAc (takeOutcome s)
    (accessEnd m s).li = t.li ∧ (accessEnd m s).fu = t.fu ∧ (accessEnd m s).te = t.te ∧ (accessEnd m s).re = t.re ∧
      (accessEnd m s).peers = t.peers ∧ (accessEnd m s).freeBlocks = t.freeBlocks ∧
      (accessEnd m s).notices = t.notices ∧ (accessEnd m s).ac.station = t.ac.station ∧
      (accessEnd m s).ac.setup = t.ac.setup ∧ (accessEnd m s).ac.order = t.ac.order ∧
      (accessEnd m s).ac.restartPending = t.ac.restartPending ∧ (accessEnd m s).ac.collisions = t.ac.collisions := by
  simp only [accessEnd]
  split <;> simp

/-- The guard completes when its quiet interval reaches 16 bit times (R36). -/
theorem exec_guardComplete_of_due {n : Nat} {s : State} (h : GuardDue n s) :
    exec .guardComplete s = .next (accessEnd (s.li.time + (16 - n)) (passTime (16 - n) s)) := by
  obtain ⟨hg, hn, hq, hc, hx, hu⟩ := h
  have hz : n - 16 = 0 := by omega
  simp [exec, execGuardComplete, hg, hq, hc, driving, hx, hu, completeGuard, guardBits, hz,
    passTime_time (16 - n) (s := s) (by simp [hq])]

/-- The quiet event of a burst that may end at this bit time (R7). -/
theorem exec_quietEvent_of_mayEnd {b : Burst} {s : State} (h : BurstMayEnd s b) :
    exec (.quietEvent 0) s = .next (burstEnd b s) := by
  obtain ⟨ha, hx, hb, ht⟩ := h
  simp [exec, execQuietEvent, ha, driving, hx, passTime_zero ht hx, quietEvent, hb]

/-- The hand-over of a reading leaves the FU and the access record, and counts the reading (R6). -/
theorem handReading_keeps (s : State) :
    (handReading s).fu = s.fu ∧ (handReading s).ac.tracker.access = s.ac.tracker.access ∧
      (handReading s).ac.setup = s.ac.setup ∧ (handReading s).choice = s.choice ∧
      (handReading s).li.burst.map (·.handed) = s.li.burst.map (·.handed + 1) := by
  refine ⟨by simp, by simp [handReading, burstTo], by simp [handReading, burstTo], by simp, ?_⟩
  simp only [handReading, burstTo, passTime]
  split <;> simp [passQuiet, passDriven] <;> cases s.li.burst <;> simp [Burst.lengthen]

/-- With no undriven bit time held there is nothing to pass on ahead (R6). -/
theorem passHeld_of_none {b : Burst} {s : State} (h : HandedBurst s b) : passHeld s = s := by
  simp [passHeld, undrivenHeld, h.1, h.2.2.2]

/-- READING with none held: the reading is handed on and taken (R6). -/
theorem exec_reading_of_handed {b : Burst} {s : State} (h : HandedBurst s b) (r : Reading) :
    exec (.reading (some r)) s = .next (readingStep r s) := by
  simp [exec, execReading, passesReadings, passReading, passHeld_of_none h, h.1, h.2.1, h.2.2.1]

/-- An event that the reading itself brings, with none held. -/
theorem bringsEvent_of_handed {b : Burst} {s : State} (h : HandedBurst s b) (due : Reading → State → Bool)
    (r : Reading) : bringsEvent due r s = due r s := by
  simp [bringsEvent, passesReadings, undrivenHeld, passHeld_of_none h, h.1, h.2.1, h.2.2]

/-- READING behind a held undriven bit time: the held one is passed on as a bad reading first (R6). -/
theorem passReading_of_held {s : State} (h : undrivenHeld s = true) (r : Reading) :
    passReading r s = readingStep r (readingStep .bad (setHeld false s)) := by
  simp [passReading, passHeld, h]

/-- The end of a burst changes the window only in the FU (R32). -/
theorem windowAtBurstEnd_keeps (b : Burst) (a : Option AnswerCode) (s : State) :
    (windowAtBurstEnd b a s).fu.deframer = s.fu.deframer ∧ (windowAtBurstEnd b a s).fu.framer = s.fu.framer := by
  unfold windowAtBurstEnd judgeWindow
  repeat' split
  all_goals simp

/-- The need to send, by station state (R47). -/
theorem needToSend_iff (s : State) : needToSend s = true ↔ s.ac.station = .resync ∨
    (s.ac.station = .online ∧ (s.ac.restartPending = true ∨ (selectEntry s).isSome = true)) := by
  simp only [needToSend]
  cases s.ac.station <;> simp

/-- A test of the need to send: nothing, or in REST a wake mark, which changes the claim and starts the mark if the driver
is RELEASED (R10, R47). -/
theorem wakeIfNeeded_spec (s : State) :
    OrderKept s (wakeIfNeeded s) ∧ (wakeIfNeeded s).ac.tracker.phase = s.ac.tracker.phase ∧
      (wakeIfNeeded s).li.time = s.li.time ∧ needToSend (wakeIfNeeded s) = needToSend s ∧
      (s.ac.tracker.phase ≠ .rest ∨ needToSend s = false → wakeIfNeeded s = s) ∧
      (s.ac.tracker.phase = .rest → needToSend s = true → claimOpen s = false → s.li.tx = none →
        (wakeIfNeeded s).li = { s.li with
          tx := some { owner := .mark, symbols := [true, false, true, false], start := s.li.time }
          stuckTimer := 0
          burst := s.li.burst.map (Burst.drivenFrom s.li.time) } ∧
        (wakeIfNeeded s).ac = { s.ac with tracker := { s.ac.tracker with access := { s.ac.tracker.access with
          claim := some { slot := none, content := .wake, progress := .wake, markedAt := s.li.time } } } }) := by
  have hok : OrderKept s (wakeIfNeeded s) ∧ (wakeIfNeeded s).ac.tracker.phase = s.ac.tracker.phase ∧
      (wakeIfNeeded s).li.time = s.li.time := by
    simp only [wakeIfNeeded]
    repeat' split
    all_goals simp [OrderKept]
  refine ⟨hok.1, hok.2.1, hok.2.2, ?_, ?_, ?_⟩
  · obtain ⟨h1, -, -, h2, -⟩ := (orderKept_iff _ _).mp hok.1
    simp [needToSend, h1, h2, selectEntry_congr (s := s) (t := wakeIfNeeded s) (by simp) (by simp)]
  · rintro (h | h) <;> simp [wakeIfNeeded, h]
  · intro h1 h2 h3 h4
    simp [wakeIfNeeded, h1, h2, h3, h4, driving, markSymbols]

/-- No bit time at all, at the release of the driver (R11). -/
theorem passTime_zero_release (s : State) :
    (passTime 0 s).fu = s.fu ∧ (passTime 0 s).ac = s.ac ∧ releaseDriver (passTime 0 s) = releaseDriver s := by
  unfold passTime
  split <;> simp [passDriven, releaseDriver, onLi] <;> cases s.li.burst <;> simp [Burst.lengthen]

/-- ECHO_MISMATCH at the present bit time: the burst goes partial, and the owner is told (R11). -/
theorem exec_echoMismatch_of_tx {x : Transmission} {s : State} (h : s.li.tx = some x) :
    exec (.echoMismatch 0) s = .next (mismatchAtOwner x.owner (markPartial (releaseDriver s))) := by
  simp [exec, execEchoMismatch, h, echoMismatch, passTime_zero_release]

/-- The release of the driver and the partial marking, before the owner acts (R11, R23, R43). -/
theorem markPartial_marked (s : State) :
    BurstMarkedPartial s (markPartial (releaseDriver s)) ∧ OrderKept s (markPartial (releaseDriver s)) ∧
      (markPartial (releaseDriver s)).ac.tracker.access.claim = s.ac.tracker.access.claim := by
  have unfollowed : ∀ a : AccessRecord, a.following = false → a = { a with following := false } := by
    rintro ⟨⟩ rfl; rfl
  cases h : s.ac.tracker.access.following
  · simpa [markPartial, BurstMarkedPartial, OrderKept, State.reset, FrameUnit.initial, h] using unfollowed _ h
  · simp [markPartial, BurstMarkedPartial, OrderKept, State.reset, FrameUnit.initial, h]

/-- The marking speaks of the line, the deframer, the staging buffer and the access record but for its claim. -/
theorem BurstMarkedPartial.of_eq {s q t : State} (h : BurstMarkedPartial s q) (hli : t.li = q.li)
    (hd : t.fu.deframer = q.fu.deframer) (hw : t.fu.window = q.fu.window) (hre : t.re = q.re)
    (hac : t.ac.tracker = { q.ac.tracker with access := { q.ac.tracker.access with
      claim := t.ac.tracker.access.claim } }) : BurstMarkedPartial s t := by
  obtain ⟨h1, h2, h3, h4, h5⟩ := h
  refine ⟨hli.trans h1, hd.trans h2, hw.trans h3, hre.trans h4, ?_⟩
  rw [hac, h5]

/-- The passing of time leaves the beginning of a burst and its markings. -/
theorem passTime_burst (n : Nat) {s : State} {b : Burst} (h : s.li.burst = some b) :
    ∃ b', (passTime n s).li.burst = some b' ∧ b'.start = b.start ∧ b'.isPartial = b.isPartial ∧ b'.isOwn = b.isOwn := by
  unfold passTime
  split <;> simp [passQuiet, passDriven, h, Burst.lengthen]

/-- The burst under way when the driver begins: own from then on exactly if the driver began in its first bit time (R5). -/
theorem startTransmission_burst (owner : Owner) (symbols : List Bool) {s : State} {b : Burst} (h : s.li.burst = some b) :
    ∃ b', (startTransmission owner symbols s).li.burst = some b' ∧ b'.start = b.start ∧ b'.isPartial = b.isPartial ∧
      (b'.isOwn = true ↔ b.isOwn = true ∨ (b.start = s.li.time ∧ b.isPartial = false)) := by
  simp [h, Burst.drivenFrom]

end Sys2Proof.Machine
end

