-- ==== Sys2Proof/Tests/Slice0.lean ====
section
/-! SUPPORT. Tests of the model on small states, and for every statement with hypotheses a state that meets them: each
theorem named after a statement shows its hypotheses met, at the ends of their ranges, beside what the command does. -/

namespace Sys2Proof.Tests

open Sys2Proof Sys2Proof.Machine

set_option Elab.async false

/-! ### Small states -/

/-- The state after a command. -/
def run (i : Instr) (s : State) : State :=
  match exec i s with
  | .next t => t
  | .fault _ => s
  | .refused _ => s

/-- Station 1 of a roster of 4, with S = 8, L = 2 and H = 3. -/
def setup4 : SetupRecord :=
  { address := 1, roster := 4, rate := 2, slot := 8, retry := 2, holdOff := 3, valid := true }

/-- Station 1 in a station state, at bit time 100, with its address at the end of the list: order slot 7. -/
def inState (st : StationState) : State :=
  { State.reset with
    ac := { AccessController.initial with station := st, setup := setup4, order := [2, 0, 3, 1] }
    li := { LineInterface.initial with sensing := if silentStation st then .off else .quiet, time := 100 } }

/-- The Host Port inside a transaction. -/
def port (t : Transaction) (c : Option Command) (bytes : List Byte) (s : State) : State :=
  onHp (fun h => { h with transaction := t, command := c, parameters := bytes, summary := some 0x60 }) s

/-- The reply and the data of the outgoing stream. -/
def reply (s : State) : Option (Reply × List Byte) := s.hp.stream.map fun o => (o.reply, o.data)

/-- A decided command with a stream of which some bytes have gone out. -/
def decided (c : Command) (r : Reply) (data : List Byte) (clocked : Nat) (s : State) : State :=
  onHp (fun h => { h with stream := some { reply := r, data := data, clocked := clocked } }) (port .decided (some c) [] s)

/-- A message of 3 bytes to a destination. -/
def message (tag : Tag) (d : Destination) : TxEntry :=
  { tag := tag, kind := .data, destination := d, length := 3, payload := [0x11, 0x22, 0x33], sequence := none,
    attempts := 0, state := .waiting, cancelPending := false, lastAnswer := none }

/-- The transmit queue. -/
def queued (q : List TxEntry) (s : State) : State :=
  onFree (fun n => n - q.length) (onTe (fun t => { t with queue := q }) s)

/-- The access record carries an own claim. -/
def claimed (c : ClaimContent) (k : Option Nat) (p : Progress) (s : State) : State :=
  setClaim (some { slot := k, content := c, progress := p, markedAt := 90 }) s

/-- A round that began at bit time 100. -/
def inRound (s : State) : State := onTracker (fun t => { t with phase := .round, roundStart := some 100 }) s

/-- The record of a burst. -/
def burst (length : Nat) : Burst :=
  { start := 100, length := length, isOwn := false, isPartial := false, candidate := decide (6 ≤ length), handed := 0,
    held := false }

/-- A burst is under way. -/
def onLine (b : Burst) (s : State) : State :=
  onLi (fun l => { l with sensing := .active, burst := some b, lineDriven := true }) s

/-- A transmission is under way in its own burst. -/
def sending (o : Owner) (symbols : List Bool) (s : State) : State :=
  startTransmission o symbols (onLine { burst 1 with isOwn := true } s)

/-- The access record follows the candidate under way. -/
def following (s : State) : State := onAccess (fun a => { a with candidateSeen := true, following := true }) s

/-- A DATA-DIRECT from station 2 to this station, in order slot 4. -/
def dataHeader : FrameHeader :=
  { kind := .dataDirect, source := 2, destination := 1, claimSlot := 4, sequence := 5, length := 3 }

/-- The deframer holds a whole frame: header taken, body taken, both end symbols taken. -/
def framed (h : Header) (s : State) : State :=
  following (onDeframer (fun d => { d with phase := .tail, tail := 2, header := some h })
    (setStaging (some { source := 2, kind := .direct, sequence := 5, length := 3, bytes := [0x11, 0x22, 0x33] })
      (onLine (burst 122) s)))

/-- The deframer stands in HUNT. -/
def hunting (s : State) : State := onDeframer (fun d => { d with phase := .hunt }) s

/-- An access whose guard stands at a count, with a frame report. -/
def guarding (n : Nat) (r : FrameReport) (s : State) : State :=
  onTracker (fun t => { t with phase := .access, guard := some n, access := { t.access with report := r } }) s

/-- The ORDER-RESET of the worked sequence in Formats: station 1, address slot 1, N = 4, restart indicator 1. -/
def orderReset : FrameRequest :=
  { kind := .orderReset, destination := 63, claimSlot := 1, sequence := 0, length := 2, payload := [4, 1] }

/-- A DATA-DIRECT of 3 bytes from station 2. -/
def dataFrame : FrameRequest :=
  { kind := .dataDirect, destination := 1, claimSlot := 4, sequence := 5, length := 3, payload := [0x11, 0x22, 0x33] }

/-! ### Well-formedness, the word form, the step -/

theorem test_wellFormed_checks :
    (Instr.unknownCommand 0x01).wellFormed = false ∧ (Instr.unknownCommand 0x00).wellFormed = true ∧
      (Instr.holdOffExpiry 32).wellFormed = false ∧ (Instr.holdOffExpiry 31).wellFormed = true ∧
      (∀ b ∈ commandCodes, (Instr.unknownCommand b).wellFormed = false) := by decide

theorem test_no_word_spells_a_command : decodeTableWord 0 0 = none ∧ (State.reset.withFetchWord 8 3) = State.reset := by
  decide +kernel

theorem witness_EveryCommandAnswersNextState :
    (Instr.unknownCommand 0x50).wellFormed = false ∧ (Instr.holdOffExpiry 32).wellFormed = false ∧
      run (.unknownCommand 0x50) (port .command none [] (inState .online)) = port .command none [] (inState .online) := by
  decide +kernel

theorem witness_StepRunsFrontCommand :
    let s := { State.reset with pending := [.selLow, .selHigh] }
    s.pending = .selLow :: [.selHigh] ∧
      step s = .next { port .command none [] { s with pending := [.selHigh] } with
        hp := { s.hp with transaction := .command, summary := some 0 } } := by
  exact ⟨rfl, rfl⟩

theorem witness_BitTimesPassAloneAndBeforeEvents :
    (inState .online).pending = [] ∧ (inState .online).li.sensing = .quiet ∧ State.reset.li.sensing = .off ∧
      (onLine (burst 1) (inState .online)).li.sensing = .active ∧ (onLine (burst 1) (inState .online)).li.tx = none ∧
      (sending .mark markSymbols (inState .online)).li.tx ≠ none ∧
      (onLi (fun l => { l with sensing := .stuck }) (inState .online)).li.sensing = .stuck ∧
      (run (.activeEvent 4) (inState .online)).li.time = 104 ∧
      (passTime 1 (onLi (fun l => { l with stuckTimer := 4096 }) (onLine (burst 9) (inState .online)))).li.stuckTimer = 4096
      := by decide +kernel

/-! ### Resets and the Host Port -/

theorem test_reset_is_off_the_line :
    State.reset.freeBlocks = 192 ∧ State.reset.li.sensing = .off ∧ attention State.reset = false ∧
      (run .hardReset (port .command none [] (inState .online))).hp.transaction = .dropped ∧
      (run .hardReset (inState .online)).hp.transaction = .idle ∧
      (run .hardResetEnd (run .hardReset (inState .online))).resetHeld = false := by decide +kernel

theorem witness_RestartResetsAtSelHigh :
    let s := run .restart (port .command none [] (inState .online))
    (port .command none [] (inState .online)).hp.transaction = .command ∧ s.hp.transaction = .decided ∧
      s.hp.command = some .restart ∧ reply s = some (.ok, []) ∧ (run .selHigh s).ac.setup = setup4 ∧
      (run .selHigh s).ac.station = .offline ∧ (run .selHigh s).ac.order = [] := by decide +kernel

theorem witness_SelLowFixesSummaryByte :
    let s := raise .lineStuck none none (onLi (fun l => { l with sensing := .stuck }) (inState .resync))
    s.hp.transaction = .idle ∧ s.resetHeld = false ∧ (run .selLow s).hp.summary = some 0b01000111 ∧
      (run .selLow { s with resetHeld := true }).hp.transaction = .dropped := by decide +kernel

theorem witness_CommandByteSelectsCommand :
    let s := port .command none [] (inState .online)
    s.hp.transaction = .command ∧ (∀ b ∈ [(0x00 : Byte), 0x06, 0x13, 0x22, 0x31, 0x43, 0x51, 0xFF],
      b ∉ commandCodes ∧ reply (run (.byteReceived b) s) = some (.unknownCommand, [])) ∧
      (run (.byteReceived 0x02) s).hp.command = some .setup ∧ (run (.byteReceived 0x02) s).hp.sdo = some 0x60 ∧
      reply (run (.byteReceived 0x42) s) = some (.ok, [2, 0, 3, 1]) := by decide +kernel

theorem witness_LastParameterBringsDecision :
    (∀ p ∈ [(Command.setup, 6), (.submit, 5), (.mask, 3), (.cancel, 2), (.gate, 2), (.readPeer, 1)],
      let s := port .parameters (some p.1) (List.replicate (p.2 - 1) 0) (inState .online)
      s.hp.transaction = .parameters ∧ s.hp.parameters.length + 1 = p.2 ∧
        (run (.byteReceived 1) s).hp.transaction = .decided) ∧
    (run (.byteReceived 7) (port .parameters (some .gate) [] (inState .online))).hp.parameters = [7] := by
  decide +kernel

theorem witness_BytesAfterDecisionClockStream :
    let s := decided .submit .ok [] 1 (inState .online)
    let o : OpenSubmit := { kind := .data, destination := .all, tag := 9, length := 1, received := [] }
    let w := onHp (fun h => { h with submit := some o }) s
    s.hp.transaction = .decided ∧ w.hp.submit = some o ∧ o.received.length < o.length ∧
      (run (.byteReceived 0x5A) w).hp.submit = some { o with received := [0x5A] } ∧
      (run (.byteReceived 1) (run (.byteReceived 0x5A) w)).hp.submit = some { o with received := [0x5A] } ∧
      (run (.byteReceived 0) (decided .status .ok [7] 1 (inState .online))).hp.sdo = some 7 ∧
      (run (.byteReceived 0) (decided .status .ok [7] 2 (inState .online))).hp.sdo = some 0 := by decide +kernel

theorem witness_TransactionEndsAtSelHigh :
    let n : NoticeRecord := { notice := { kind := .collision, subject := none, detail := none }, repeats := 0, lostAfter := 0 }
    let s := onNotices (fun _ => [n]) (inState .online)
    (∀ t ∈ [Transaction.command, .parameters, .dropped], (run .selHigh (port t none [] s)).hp.transaction = .idle) ∧
      (decided .takeNotice .ok [3, 255, 0, 0, 0] 6 s).hp.transaction = .decided ∧
      (run .selHigh (decided .takeNotice .ok [3, 255, 0, 0, 0] 6 s)).notices = [] ∧
      (run .selHigh (decided .takeNotice .ok [3, 255, 0, 0, 0] 5 s)).notices = [n] ∧
      (run .selHigh (decided .takeNotice .empty [] 1 s)).notices = [n] ∧
      (decided .takeCompletion .ok [] 1 s).hp.command = some .takeCompletion := by decide +kernel

theorem witness_StatusReturnsCounts :
    let s := port .command none [] (queued [message 7 .all] (inState .online))
    s.hp.transaction = .command ∧ reply (run .status s) = some (.ok, [0x60, 1, 0, 0, 0, 191, 3, 0]) := by
  decide +kernel

theorem witness_ReadOrderReturnsList :
    let s := port .command none [] (inState .online)
    let e := port .command none [] State.reset
    s.hp.transaction = .command ∧ s.ac.order ≠ [] ∧ s.ac.order.isPerm (ascending (roster s)) = true ∧
      reply (run .readOrder s) = some (.ok, [2, 0, 3, 1]) ∧ e.ac.order = [] ∧
      reply (run .readOrder e) = some (.empty, []) ∧
      (run (.setup 3) (port .parameters (some .setup) [1, 4, 2, 8, 2] (inState .offline))).ac.order = [] ∧
      (decided .restart .ok [] 0 s).hp.command = some .restart := by decide +kernel

theorem witness_ReadPeerReturnsEntry :
    let s := port .parameters (some .readPeer) [] (setHoldOff 2 (inState .online))
    s.hp.transaction = .parameters ∧ s.hp.command = some .readPeer ∧ s.hp.parameters = [] ∧ s.ac.setup.valid = true ∧
      reply (run (.readPeer 2) s) = some (.ok, [0, 0, 0, 0xFF, 0, 1, 3]) ∧
      reply (run (.readPeer 3) s) = some (.ok, [0, 0, 0, 0xFF, 0, 0, 0]) ∧
      reply (run (.readPeer 1) s) = some (.badAddress, []) ∧ reply (run (.readPeer 4) s) = some (.badAddress, []) ∧
      reply (run (.readPeer 2) (port .parameters (some .readPeer) [] State.reset)) = some (.badAddress, []) := by
  decide +kernel

theorem witness_ReadsCopyOldestRecord :
    let c : Completion :=
      { tag := 0x1234, destination := .all, outcome := .sent, attempts := 1, sequence := none, duplicateNote := false,
        lastAnswer := none }
    let r : RxRecord := { source := 2, kind := .direct, sequence := some 5, length := 1, missed := 3, payload := [0xAB] }
    let e := port .command none [] (inState .online)
    let s := raise .frameError (some 2) (some .body)
      (onRe (fun x => { x with ring := [r] }) (onTe (fun x => { x with completions := [c] }) e))
    s.hp.transaction = .command ∧ s.re.ring = [r] ∧ s.te.completions = [c] ∧
      reply (run .fetch s) = some (.ok, [2, 0, 5, 1, 3, 0xAB]) ∧
      reply (run .takeCompletion s) = some (.ok, [0x12, 0x34, 63, 3, 1, 0xFF, 0, 0]) ∧
      reply (run .takeNotice s) = some (.ok, [11, 2, 3, 0, 0]) ∧
      reply (run .fetch e) = some (.empty, []) ∧ reply (run .takeCompletion e) = some (.empty, []) ∧
      reply (run .takeNotice e) = some (.empty, []) := by decide +kernel

theorem witness_SetupStoresRecord :
    let p := fun l st => port .parameters (some .setup) l (inState st)
    (p [1, 4, 2, 8, 2] .offline).hp.parameters = [1, 4, 2, 8, 2] ∧
      (run (.setup 3) (p [1, 4, 2, 8, 2] .offline)).ac.setup = setup4 ∧
      (∀ l ∈ [([1, 2, 0, 6, 1] : List Byte), [31, 32, 5, 16, 15]], ∀ h ∈ [(1 : Byte), 255],
        reply (run (.setup h) (p l .offline)) = some (.ok, [])) ∧
      (∀ l ∈ [([0, 1, 0, 6, 1] : List Byte), [0, 33, 0, 6, 1], [4, 4, 0, 6, 1], [0, 4, 6, 6, 1], [0, 4, 0, 5, 1],
          [0, 4, 0, 17, 1], [0, 4, 0, 6, 0], [0, 4, 0, 6, 16]],
        reply (run (.setup 1) (p l .offline)) = some (.badSetup, [])) ∧
      reply (run (.setup 0) (p [1, 4, 2, 8, 2] .offline)) = some (.badSetup, []) ∧
      reply (run (.setup 3) (p [1, 4, 2, 8, 2] .online)) = some (.wrongState, []) := by decide +kernel

theorem witness_JoinStartsListening :
    let s := port .command none [] (inState .offline)
    let driven := onLi (fun l => { l with lineDriven := true }) s
    s.hp.transaction = .command ∧ s.ac.station = .offline ∧ s.ac.setup.valid = true ∧
      (run .join s).ac.station = .listening ∧ (run .join s).ac.order = [0, 1, 2, 3] ∧ (run .join s).li.sensing = .quiet ∧
      (run .join driven).li.sensing = .active ∧ (run .join driven).ac.tracker.activitySeen = true ∧
      reply (run .join (port .command none [] State.reset)) = some (.noSetup, []) ∧
      reply (run .join (port .command none [] (inState .halted))) = some (.wrongState, []) := by decide +kernel

theorem witness_LeaveEntersLeavingOrOffline :
    let p := fun s => port .command none [] s
    let s := p (queued [message 7 (.peer 2), message 8 .all] (inState .online))
    let c := p (claimed .orderReset (some 7) .sent (inState .online))
    s.hp.transaction = .command ∧ s.ac.tracker.access.claim = none ∧ answering s = false ∧
      (run .leave s).ac.station = .offline ∧ (run .leave s).te.completions.map (·.tag) = [7, 8] ∧
      (run .leave s).freeBlocks = 192 ∧ c.ac.tracker.access.claim ≠ none ∧ (run .leave c).ac.station = .leaving ∧
      (run .leave (p (inState .halted))).ac.station = .offline ∧
      reply (run .leave (p (inState .leaving))) = some (.ok, []) ∧
      reply (run .leave (p (inState .offline))) = some (.wrongState, []) := by decide +kernel

theorem witness_SubmitIsJudgedAndOpens :
    let p := fun l s => port .parameters (some .submit) l s
    let s := inState .online
    (p [0, 2, 0, 7] s).hp.parameters = [0, 2, 0, 7] ∧ reply (run (.submit 240) (p [0, 2, 0, 7] s)) = some (.ok, []) ∧
      (run (.submit 240) (p [0, 2, 0, 7] s)).freeBlocks = 184 ∧
      reply (run (.submit 240) (p [0, 2, 0, 7] { s with freeBlocks := 24 })) = some (.ok, []) ∧
      reply (run (.submit 240) (p [0, 2, 0, 7] { s with freeBlocks := 23 })) = some (.noSpace, []) ∧
      reply (run (.submit 0) (p [1, 2, 0, 7] { s with freeBlocks := 0 })) = some (.ok, []) ∧
      reply (run (.submit 241) (p [0, 2, 0, 7] s)) = some (.badLength, []) ∧
      reply (run (.submit 1) (p [1, 2, 0, 7] s)) = some (.badLength, []) ∧
      reply (run (.submit 0) (p [1, 63, 0, 7] s)) = some (.badDest, []) ∧
      reply (run (.submit 0) (p [0, 4, 0, 7] s)) = some (.badDest, []) ∧
      reply (run (.submit 0) (p [0, 2, 0, 7] (queued [message 7 .all] s))) = some (.duplicateTag, []) ∧
      reply (run (.submit 0) (p [0, 2, 1, 7] (queued (List.replicate 32 (message 7 .all)) s))) = some (.queueFull, []) ∧
      reply (run (.submit 0) (p [0, 2, 0, 7] (inState .leaving))) = some (.wrongState, []) := by decide +kernel

theorem witness_SubmitJoinsOrReturns :
    let o : OpenSubmit := { kind := .data, destination := .peer 2, tag := 9, length := 1, received := [0x5A] }
    let s := onHp (fun h => { h with submit := some o }) (decided .submit .ok [] 1 (inState .online))
    let r := onTracker (fun t => { t with phase := .rest }) s
    let short := onHp (fun h => { h with submit := some { o with received := [] } }) s
    s.hp.transaction = .decided ∧ s.hp.command = some .submit ∧ s.hp.submit = some o ∧
      (run .selHigh s).te.queue.map (·.tag) = [9] ∧ (run .selHigh s).li.tx = none ∧
      r.ac.tracker.phase = .rest ∧ r.li.tx = none ∧ claimOpen r = false ∧
      (selectEntry (run .selHigh r)).isSome = true ∧ claimProgress (run .selHigh r) = some .wake ∧
      (run .selHigh r).li.tx.isSome = true ∧
      (run .selHigh short).te.queue = [] ∧ (run .selHigh short).freeBlocks = 193 := by decide +kernel

/-- In REST the joining of an entry wakes the line for RESYNC and for restart pending, and not for a held-off entry. -/
theorem witness_SubmitJoinsOrReturns_in_rest :
    let o : OpenSubmit := { kind := .data, destination := .peer 2, tag := 9, length := 1, received := [0x5A] }
    let s := fun st => onTracker (fun t => { t with phase := .rest })
      (onHp (fun h => { h with submit := some o }) (decided .submit .ok [] 1 (setHoldOff 2 (inState st))))
    let pending := onAc (fun a => { a with restartPending := true }) (s .online)
    claimOpen (s .resync) = false ∧ (s .resync).li.tx = none ∧ claimProgress (run .selHigh (s .resync)) = some .wake ∧
      (selectEntry (run .selHigh pending)).isSome = false ∧ claimProgress (run .selHigh pending) = some .wake ∧
      (run .selHigh (s .online)).li.tx = none ∧ claimProgress (run .selHigh (s .online)) = none := by decide +kernel

theorem witness_CancelFinishesOrMarks :
    let s := fun e => port .parameters (some .cancel) [0] (queued [e] (inState .online))
    let w := message 7 (.peer 2)
    let f := { w with state := .inFlight }
    (s w).hp.parameters = [0] ∧ findEntry (s w) 7 = some w ∧ w.state = .waiting ∧
      (run (.cancel 7) (s w)).te.completions.map (·.outcome) = [.cancelled] ∧
      findEntry (s f) 7 = some f ∧ reply (run (.cancel 7) (s f)) = some (.pending, []) ∧
      (run (.cancel 7) (s f)).te.queue = [{ f with cancelPending := true }] ∧
      reply (run (.cancel 8) (s w)) = some (.notFound, []) := by decide +kernel

theorem witness_GateSetsPeerGate :
    let s := fun a st => port .parameters (some .gate) [a] (inState st)
    (s 2 .online).hp.parameters = [2] ∧ (peerEntry (run (.gate 1) (s 2 .halted)) 2).gate = .closed ∧
      (peerEntry (run (.gate 0) (s 3 .online)) 3).gate = .opened ∧
      reply (run (.gate 1) (s 4 .online)) = some (.badAddress, []) ∧
      reply (run (.gate 1) (s 1 .online)) = some (.badAddress, []) ∧
      reply (run (.gate 1) (s 2 .offline)) = some (.wrongState, []) := by decide +kernel

theorem witness_ReleaseRemovesOldestRecord :
    let r : RxRecord := { source := 2, kind := .all, sequence := none, length := 33, missed := 0, payload := [] }
    let s := port .command none [] (onRe (fun x => { x with ring := [r, r] }) { inState .halted with freeBlocks := 188 })
    s.hp.transaction = .command ∧ s.re.ring = [r, r] ∧ (run .release s).re.ring = [r] ∧
      (run .release s).freeBlocks = 190 ∧ (run .release s).hp.command = some .release ∧
      reply (run .release (port .command none [] State.reset)) = some (.empty, []) := by decide +kernel

theorem witness_MaskSetsAttention :
    let s := raise .collision none none (port .parameters (some .mask) [1, 0] (inState .online))
    s.hp.parameters = [1, 0] ∧ attention s = true ∧ attention (run (.mask 0) s) = false ∧
      (run (.mask 2) s).hp.mask = { completions := true, receptions := false, notices := true } ∧
      (run (.byteReceived 0) (port .parameters (some .mask) [1] s)).hp.mask = s.hp.mask ∧
      (run .hardReset (run (.mask 0) s)).hp.mask = AttentionMask.all := by decide +kernel

/-! ### The line -/

theorem witness_BurstBeginsAndBecomesCandidate :
    let s := inRound (inState .online)
    let b := { burst 6 with candidate := false }
    s.li.sensing = .quiet ∧ (run (.activeEvent 8) s).ac.tracker.access.burstSlot = some 1 ∧
      (run (.activeEvent 7) s).ac.tracker.access.burstSlot = some 0 ∧
      (run (.activeEvent 0) s).ac.tracker.phase = .access ∧
      (onLine b s).li.sensing = .active ∧ (onLine b s).fu.deframer.phase = .quiet ∧
      (run .frameCandidate (onLine b s)).fu.deframer.phase = .hunt ∧
      (run .frameCandidate (onLine (burst 1) s)).li.time = 105 ∧
      (run .frameCandidate (onLine { burst 5 with isOwn := true } s)).fu.deframer.phase = .discard := by decide +kernel

theorem witness_QuietEventEndsBurst :
    let s := fun b => onAccess (fun a => { a with burstSlot := some 5 })
      (onTracker (fun t => { t with phase := .access }) (onLine b (inState .online)))
    let w := fun armed b => setWindow (.opened .probe 2 0 armed) (s b)
    DeframerFollowsCandidate (s (burst 5)) ∧ BurstMayEnd (s (burst 5)) (burst 5) ∧ (burst 5).isPartial = false ∧ (burst 5).candidate = false ∧
      (run (.quietEvent 0) (s (burst 5))).ac.tracker.access.observed = some 5 ∧
      (run (.quietEvent 0) (s (burst 1))).ac.tracker.guard = some 2 ∧
      (run (.quietEvent 0) (w true (burst 5))).fu.window = .judged .probe 2 0 none ∧
      (run (.quietEvent 0) (w false (burst 5))).fu.window = .opened .probe 2 0 true ∧
      (run (.quietEvent 0) (w true { burst 5 with isOwn := true })).fu.window = .opened .probe 2 0 true ∧
      (run (.quietEvent 0) (w true { burst 5 with isPartial := true })).fu.window = .opened .probe 2 0 true ∧
      (run (.quietEvent 0) (s { burst 5 with isPartial := true })).ac.tracker.access.observed = none ∧
      (let d := onDeframer (fun x => { x with phase := .discard }) (s (burst 6))
       BurstMayEnd d (burst 6) ∧ (burst 6).candidate = true ∧ (run (.quietEvent 0) d).fu.deframer.phase = .quiet) := by
  decide +kernel

theorem witness_EchoPassGoesToOwner :
    let m := sending .mark markSymbols (claimed .orderReset (some 7) .marked (inState .online))
    let w := sending .mark markSymbols (claimed .wake none .wake (inState .online))
    let f := setFramer (.frame dataFrame) (sending .frame (frameSymbols 1 dataFrame)
      (claimed (.entry 7) (some 7) .sent (queued [message 7 (.peer 2)] (inState .online))))
    m.li.tx.isSome = true ∧ claimProgress (run .echoPass m) = some .held ∧ (run .echoPass m).li.time = 104 ∧
      claimProgress (run .echoPass w) = some .wake ∧
      f.fu.framer = .frame dataFrame ∧ claimProgress (run .echoPass f) = some .passed ∧
      (run .echoPass f).te.queue.map (·.attempts) = [1] ∧
      (run .echoPass f).fu.window = .opened .dataDirect 1 5 false ∧
      (run .echoPass (setFramer (.frame orderReset) { f with ac := { f.ac with restartPending := true } })).ac.restartPending
        = false ∧
      (run .echoPass (setFramer .answer (sending .answer [true] (inState .online)))).fu.framer = .idle := by
  decide +kernel

theorem witness_EchoMismatchOfMarkOrAnswer :
    let e := { message 7 (.peer 2) with state := .inFlight, sequence := some 3 }
    let s := fun e => sending .mark markSymbols (claimed (.entry 7) (some 7) .marked (queued [e] (inState .online)))
    let a := setFramer .answer (sending .answer [true] (inState .online))
    (s e).li.tx.isSome = true ∧ findEntry (s e) 7 = some e ∧ e.cancelPending = false ∧
      claimProgress (run (.echoMismatch 0) (s e)) = some .withdrawn ∧
      (run (.echoMismatch 0) (s e)).te.queue = [{ e with state := .waiting }] ∧
      (run (.echoMismatch 0) (s { e with cancelPending := true })).te.completions.map (·.outcome) = [.cancelled] ∧
      (run (.echoMismatch 0) (s e)).notices = [] ∧ a.li.tx.map (·.owner) = some .answer ∧
      (run (.echoMismatch 0) a).fu.framer = .idle := by decide +kernel

/-- A frame report that followed the burst is absent again, another one stays; a wake claim stays as it is. -/
theorem witness_EchoMismatchOfMarkOrAnswer_record :
    let s := sending .mark markSymbols (claimed .wake none .wake (guarding 2 .headerInvalid (inState .online)))
    let access := fun s => (run (.echoMismatch 0) s).ac.tracker.access
    s.li.tx.isSome = true ∧ claimProgress s ≠ some .marked ∧ (access s).report = .headerInvalid ∧
      (access (following s)).report = .absent ∧ (access (following s)).candidateSeen = false ∧
      (access s).claim = s.ac.tracker.access.claim := by decide +kernel

theorem witness_EchoMismatchOfFrameIsCollision :
    let s := fun n k => onAc (fun a => { a with collisions := n })
      (sending .frame [true] (claimed .orderReset (some k) .sent (inState .resync)))
    (s 3 1).li.tx.isSome = true ∧ (s 3 1).ac.collisions ≤ 3 ∧ (run (.echoMismatch 0) (s 3 1)).ac.station = .halted ∧
      (run (.echoMismatch 0) (s 3 1)).notices.map (·.notice.kind) = [.collision, .addressConflict] ∧
      (run (.echoMismatch 0) (s 2 1)).ac.collisions = 3 ∧ (run (.echoMismatch 0) (s 3 4)).ac.collisions = 3 ∧
      claimProgress (run (.echoMismatch 0) (s 2 1)) = some .mismatched ∧
      (run (.echoMismatch 0) (s 2 1)).li.burst = some { burst 1 with isPartial := true } ∧
      (run (.echoMismatch 0) (s 3 1)).li.burst = none := by decide +kernel

theorem witness_StuckAndFreeLine :
    let s := fun st => onLi (fun l => { l with stuckTimer := 4096 }) (onLine (burst 6) (inState st))
    let f := onDeframer (fun d => { d with phase := .discard }) (onLi (fun l => { l with sensing := .stuck }) (s .resync))
    (s .online).li.sensing = .active ∧ (s .online).li.tx = none ∧ claimUnsettled (s .online) = false ∧
      outcomeDue (s .online) = false ∧ (run .stuck (s .online)).ac.station = .resync ∧
      (run .stuck (s .online)).notices.map (·.notice.kind) = [.lineStuck] ∧
      (run .stuck (s .leaving)).ac.station = .offline ∧ (run .stuck (onLine (burst 6) (inState .listening))).li.time = 4196 ∧
      f.li.sensing = .stuck ∧ f.li.burst = some (burst 6) ∧ (run (.free 0) f).li.sensing = .quiet ∧
      (run (.free 0) f).notices.map (·.notice.kind) = [.lineFree] := by decide +kernel

/-! ### The deframer and the framer -/

theorem test_two_checks : headerCheckOf [4, 1, 0x3F, 1, 0, 2] = 0x77 ∧ bodyCheckOf [4, 1] = 0x86C7 := by decide +kernel

theorem test_worked_order_reset :
    frameHeaderBytes 1 orderReset = [0x04, 0x01, 0x3F, 0x01, 0x00, 0x02, 0x77] ∧
      frameBodyBytes orderReset = [4, 1, 0xC7, 0x86] ∧ (frameSymbols 1 orderReset).length = 114 := by decide +kernel

theorem test_half_symbols :
    (∀ b : Bool, classify (symbolHalves b) = some (Reading.ofBit b)) ∧
      classify (mergeHalf (symbolHalves true).1 (symbolHalves false).1,
        mergeHalf (symbolHalves true).2 (symbolHalves false).2) = none := by decide +kernel

theorem witness_ReadingMovesDeframer :
    let s := fun f => onDeframer f (onLine (burst 6) (inState .online))
    let r := fun x f => run (.reading (some x)) (s f)
    HandedBurst (s id) (burst 6) ∧ (r .one fun d => { d with phase := .discard }).fu.deframer.phase = .discard ∧
      (r .bad fun d => { d with phase := .hunt, count := 30 }).fu.deframer.count = 31 ∧
      (r .one fun d => { d with phase := .header, bits := List.replicate 6 false }).fu.deframer.bits.length = 7 ∧
      (r .zero fun d => { d with phase := .body, expected := 2 }).fu.deframer.expected = 1 ∧
      (r .bad fun d => { d with phase := .tail, tail := 1 }).fu.deframer.bodyFailed = true := by
  decide +kernel

/-- The reading that completes a header byte, a payload byte and the first byte of the body check. -/
theorem witness_ReadingMovesDeframer_bytes :
    let s := fun f => onDeframer f (setStaging (some { source := 2, kind := .direct, sequence := 5, length := 1, bytes := [] })
      (onLine (burst 60) (inState .online)))
    let header := s fun d => { d with phase := .header, bits := List.replicate 7 false }
    let body := fun bytes n => s fun d => { d with
      phase := .body, expected := n, bits := List.replicate 7 false, bodyBytes := bytes
      header := some (.frame { dataHeader with length := 1 }) }
    let bytes := fun t : State => t.re.staging.map (·.bytes)
    HandedBurst header (burst 60) ∧ (1 : Nat) ≠ headerLength [0x80] ∧
      (run (.reading (some .one)) header).fu.deframer.headerCheck = headerCheckByte 0xFF 0x80 ∧
      (run (.reading (some .one)) (body [] 17)).fu.deframer.bodyCheck = bodyCheckByte 0xFFFF 0x80 ∧
      bytes (run (.reading (some .one)) (body [] 17)) = some [0x80] ∧
      (run (.reading (some .one)) (body [0x11] 9)).fu.deframer.bodyCheck = 0xFFFF ∧
      (run (.reading (some .one)) (body [0x11] 9)).fu.deframer.bodyBytes = [0x11, 0x80] ∧
      bytes (run (.reading (some .one)) (body [0x11] 9)) = some [] := by decide +kernel

/-- One undriven bit time is held, and passed on as bad ahead of the driven one that follows; two are the quiet event (R6). -/
theorem witness_ReadingMovesDeframer_held :
    let s := fun f => onDeframer f (onLine (burst 30) (inState .online))
    let held := fun f => run (.reading none) (s f)
    let tail := fun n => held fun d => { d with phase := .tail, tail := n, header := some (.frame dataHeader) }
    HandedBurst (s id) (burst 30) ∧ (held id).li.burst = some { burst 30 with held := true } ∧ (held id).li.tx = none ∧
      (run (.reading (some .one)) (held fun d => { d with phase := .hunt })).fu.deframer.recent = [.one, .bad] ∧
      (run (.reading (some .one)) (held fun d => { d with phase := .hunt })).li.burst = some { burst 30 with handed := 2 } ∧
      (run (.reading none) (held fun d => { d with phase := .hunt })).li.sensing = .quiet ∧
      (run (.reading none) (held fun d => { d with phase := .hunt })).fu.deframer.recent = [] ∧
      (run (.reading none) (onLi (fun l => { l with sensing := .stuck }) (held id))).li.sensing = .quiet ∧
      (run (.noSync .zero) (held fun d => { d with phase := .hunt, count := 30 })).fu.deframer.phase = .discard ∧
      (run (.headerJudged .one) (held fun d => { d with phase := .header })).fu.deframer.phase = .discard ∧
      (run (.bodyCheckTaken .one) (held fun d => { d with phase := .body, expected := 2 })).fu.deframer.phase = .tail ∧
      (run (.overrun .one) (tail 1)).fu.deframer.phase = .discard ∧
      (run (.overrun .one) (tail 2)).fu.deframer.phase = .discard := by decide +kernel

theorem witness_SyncAndBodyCheckMoveDeframer :
    let s := fun f => onDeframer f (following (onLine (burst 30) (inState .online)))
    let sync := s fun d => { d with phase := .hunt, recent := syncReadings.drop 1, count := 23 }
    let none_ := s fun d => { d with phase := .hunt, count := 31 }
    let h : FrameHeader := { dataHeader with length := 0 + 1 }
    let body := s fun d => { d with
      phase := .body, expected := 1, bits := List.replicate 7 false, header := some (.frame h), bodyBytes := [0x11, 0xCC] }
    HandedBurst sync (burst 30) ∧ (Reading.zero :: sync.fu.deframer.recent).take 16 = syncReadings ∧
      (run .syncFound sync).fu.deframer.phase = .header ∧
      (Reading.one :: none_.fu.deframer.recent).take 16 ≠ syncReadings ∧
      (run (.noSync .one) none_).fu.deframer.phase = .discard ∧
      (run (.noSync .one) none_).ac.tracker.access.report = .headerInvalid ∧
      HandedBurst body (burst 30) ∧ body.fu.deframer.bodyBytes.length = h.length + 1 ∧
      (run (.bodyCheckTaken .one) body).fu.deframer.bodyFailed = true ∧
      (run (.bodyCheckTaken .bad) body).fu.deframer.bodyFailed = true ∧
      (run (.bodyCheckTaken .one) body).fu.deframer.phase = .tail := by decide +kernel

theorem witness_HeaderIsJudged :
    let bytes := frameHeaderBytes 2 dataFrame
    let s := fun f => onDeframer (fun d => f { d with phase := .header, headerBytes := bytes.take 6, bits := (bitsLowFirst (bytes.getD 6 0)).take 7, headerCheck := headerCheckOf (bytes.take 6) })
      (following (onLine (burst 80) (updatePeer 2 (fun e => { e with presence := .silent }) (inState .online))))
    let good := s id
    HandedBurst good (burst 80) ∧ good.fu.deframer.phase = .header ∧ good.fu.deframer.bits.length = 7 ∧
      good.fu.deframer.headerBytes.length + 1 = headerLength good.fu.deframer.headerBytes ∧
      judgeHeader 4 bytes good.fu.deframer.headerCheck = some (.frame dataHeader) ∧
      (run (.headerJudged .one) good).fu.deframer.phase = .body ∧
      (run (.headerJudged .one) good).fu.deframer.expected = 40 ∧
      (peerEntry (run (.headerJudged .one) good) 2).presence = .present ∧
      (run (.headerJudged .one) good).notices.map (·.notice.kind) = [.peerBack] ∧
      (run (.headerJudged .one) good).re.staging.map (·.sequence) = some 5 ∧
      (run (.headerJudged .zero) good).fu.deframer.phase = .discard ∧
      (run (.headerJudged .bad) (s fun d => { d with bits := [] })).fu.deframer.phase = .discard := by decide +kernel

theorem witness_OverrunAndTruncationAreReported :
    let s := framed (.frame dataHeader) (inState .online)
    let short := onDeframer (fun d => { d with tail := 1 }) s
    HandedBurst s (burst 122) ∧ s.fu.deframer.phase = .tail ∧ s.fu.deframer.tail = 2 ∧
      (run (.overrun .bad) s).fu.deframer.phase = .discard ∧
      (run (.overrun .one) s).ac.tracker.access.report = .header (.frame dataHeader) .body none ∧
      (run (.overrun .one) s).notices.map (·.notice.detail) = [some .body] ∧ (run (.overrun .one) s).re.staging = none ∧
      BurstMayEnd short (burst 122) ∧ (run (.quietEvent 0) short).notices.map (·.notice.detail) = [some .truncated] ∧
      (run (.quietEvent 0) (onLine (burst 6) (hunting (inState .online)))).notices.map (·.notice.subject) = [none] := by
  decide +kernel

theorem witness_HeaderRoundTrip :
    judgeHeader 4 (frameHeaderBytes 1 orderReset) (headerCheckOf ((frameHeaderBytes 1 orderReset).take 6)) =
        some (.frame { kind := .orderReset, source := 1, destination := 63, claimSlot := 1, sequence := 0, length := 2 }) ∧
      (let r : FrameRequest :=
        { kind := .dataDirect, destination := 30, claimSlot := 63, sequence := 15, length := 240, payload := [] }
       judgeHeader 32 (frameHeaderBytes 31 r) (headerCheckOf ((frameHeaderBytes 31 r).take 6)) = some (.frame
         { kind := .dataDirect, source := 31, destination := 30, claimSlot := 63, sequence := 15, length := 240 })) ∧
      (let a : Answer := { destination := 0, code := .present, echo := 15 }
       judgeHeader 2 (answerHeaderBytes 1 a) (headerCheckOf ((answerHeaderBytes 1 a).take 5)) =
         some (.answer { source := 1, destination := 0, code := .present, echo := 15 })) := by decide +kernel

/-- A byte of the header outside its range, one after another, makes the header invalid. -/
theorem test_invalid_headers :
    (∀ bytes ∈ ([[0x06, 2, 1, 4, 5, 3], [0x11, 2, 1, 4, 5, 3], [0x01, 4, 1, 4, 5, 3], [0x01, 2, 2, 4, 5, 3], [0x01, 2, 63, 4, 5, 3],
        [0x01, 2, 1, 3, 5, 3], [0x01, 2, 1, 8, 5, 3], [0x01, 2, 1, 4, 16, 3], [0x01, 2, 1, 4, 5, 241], [0x02, 2, 1, 4, 0, 3],
        [0x03, 2, 1, 4, 0, 1], [0x04, 2, 63, 1, 0, 2], [0x04, 2, 63, 2, 0, 3]] : List (List Byte)),
      judgeHeader 4 (withHeaderCheck bytes) (headerCheckOf bytes) = none) ∧
    judgeHeader 4 [0x01, 2, 1, 4, 5, 3, 0] 1 = none ∧ (judgeHeader 4 [0x01, 2, 1, 4, 5, 3, 1] 1).isSome = true ∧
    (∀ bytes ∈ ([[5, 4, 0, 1, 0], [5, 1, 4, 1, 0], [5, 1, 1, 1, 0], [5, 1, 0, 0, 0], [5, 1, 0, 7, 0], [5, 1, 0, 1, 16]]
        : List (List Byte)), judgeHeader 4 (withHeaderCheck bytes) (headerCheckOf bytes) = none) := by decide +kernel

theorem witness_FrameSymbolsDeframe :
    let s := hunting (inState .online)
    let t := (frameSymbols 2 dataFrame).foldl (fun s x => takeReading (Reading.ofBit x) s) s
    s.fu.deframer = { State.reset.fu.deframer with phase := .hunt } ∧ s.ac.setup.roster ≤ 32 ∧
      dataFrame.payload.length = dataFrame.length ∧ t.fu.deframer.phase = .tail ∧ t.fu.deframer.tail = 2 ∧
      t.fu.deframer.bodyFailed = false ∧ t.fu.deframer.header = some (.frame dataHeader) ∧
      t.re.staging.map (·.bytes) = some dataFrame.payload := by decide +kernel

/-! ### Reception -/

theorem witness_DataDirectDecision :
    let s := framed (.frame dataHeader) (inState .online)
    let code := fun s => match (run (.quietEvent 0) s).fu.framer with
      | .answerDue a due => some (a.code, a.echo, due)
      | .idle | .frame _ | .answer => none
    BurstMayEnd s (burst 122) ∧ s.fu.deframer.header = some (.frame dataHeader) ∧
      code s = some (.accepted, 5, 226) ∧ (run (.quietEvent 0) s).re.ring.map (·.payload) = [[0x11, 0x22, 0x33]] ∧
      (run (.quietEvent 0) s).freeBlocks = 191 ∧ code { s with freeBlocks := 1 } = some (.accepted, 5, 226) ∧
      code { s with freeBlocks := 0 } = some (.full, 5, 226) ∧
      code (updatePeer 2 (fun e => { e with lastAccepted := some 5 }) s) = some (.duplicate, 5, 226) ∧
      code (updatePeer 2 (fun e => { e with gate := .closed }) s) = some (.closed, 5, 226) ∧
      code (onDeframer (fun d => { d with bodyFailed := true }) s) = some (.checkFail, 5, 226) := by decide +kernel

theorem witness_ProbeBroadcastAndOtherFrameEnds :
    let p := framed (.frame { dataHeader with kind := .probe, length := 0 }) (inState .online)
    let b := framed (.frame { dataHeader with kind := .dataAll, destination := 63 }) (inState .online)
    let r := onDeframer (fun d => { d with bodyBytes := [4, 1, 0, 0] })
      (framed (.frame { dataHeader with kind := .orderReset, destination := 63, length := 2 }) (inState .online))
    BurstMayEnd p (burst 122) ∧ answering (run (.quietEvent 0) p) = true ∧ (run (.quietEvent 0) p).re.ring = [] ∧
      (run (.quietEvent 0) b).re.ring.map (·.sequence) = [none] ∧ answering (run (.quietEvent 0) b) = false ∧
      (run (.quietEvent 0) (onRe (fun x => { x with missed := 255 }) { b with freeBlocks := 0 })).re.missed = 255 ∧
      (run (.quietEvent 0) (updatePeer 2 (fun e => { e with gate := .closed }) b)).re.ring = [] ∧
      (run (.quietEvent 0) r).ac.tracker.access.report = .header
        (.frame { dataHeader with kind := .orderReset, destination := 63, length := 2 }) .good
        (some { roster := 4, restart := true }) ∧
      (run (.quietEvent 0) (framed (.frame { dataHeader with destination := 3 }) (inState .online))).re.ring = [] := by
  decide +kernel

theorem witness_AnswerGoesOutAfterGap :
    let a : Answer := { destination := 2, code := .accepted, echo := 5 }
    let s := setFramer (.answerDue a 102) (inState .online)
    s.fu.framer = .answerDue a 102 ∧ s.li.sensing ≠ .off ∧ (run .answerGapExpiry s).fu.framer = .answer ∧
      (run .answerGapExpiry s).li.tx.map (·.start) = some 102 ∧ (answerSymbols 1 a).length = 74 ∧
      (run .answerGapExpiry (setFramer (.answerDue a 102) (sending .mark markSymbols s))).fu.framer = .idle := by
  decide +kernel

theorem witness_AnswerWindowIsJudged :
    let h : AnswerHeader := { source := 2, destination := 1, code := .accepted, echo := 5 }
    let s := fun h => setWindow (.opened .dataDirect 2 5 true) (framed (.answer h) (inState .online))
    BurstMayEnd (s h) (burst 122) ∧ (run (.quietEvent 0) (s h)).fu.window = .judged .dataDirect 2 5 (some .accepted) ∧
      (∀ x ∈ [{ h with echo := 4 }, { h with source := 3 }, { h with destination := 0 }, { h with code := .present }],
        (run (.quietEvent 0) (s x)).fu.window = .judged .dataDirect 2 5 none) := by decide +kernel

/-! ### Rounds and the order list -/

theorem witness_SlotStartClaims :
    let s := inRound (inState .online)
    let r := onAc (fun a => { a with restartPending := true }) s
    let q := queued [message 7 (.peer 2)] s
    ownSlot s = some 7 ∧ s.li.time ≤ slotStartTime s 7 ∧ slotStartTime s 7 = 156 ∧
      s.ac.order = [2, 0, 3] ++ s.ac.setup.address :: [] ∧ s.ac.setup.address ∉ [2, 0, 3] ∧
      ownSlot (onOrder (fun _ => [2, 0, 3]) s) = none ∧ ownSlot (inRound (inState .leaving)) = none ∧
      (run .slotStart s).li.tx = none ∧ claimContent (run .slotStart r) = some .orderReset ∧
      (run .slotStart r).li.time = 156 ∧ ownSlot (inRound (inState .resync)) = some 1 ∧
      claimContent (run .slotStart (inRound (inState .resync))) = some .orderReset ∧
      selectEntry q = some (message 7 (.peer 2)) ∧ findEntry q 7 = some (message 7 (.peer 2)) ∧
      (run .slotStart q).te.queue = [{ message 7 (.peer 2) with state := .inFlight, sequence := some 0 }] := by
  decide +kernel

theorem test_selection_skips_held_off_and_younger :
    let q := [message 1 (.peer 2), message 2 (.peer 2), message 3 .all]
    selectEntry (queued q (inState .online)) = some (message 1 (.peer 2)) ∧
      selectEntry (setHoldOff 2 (queued q (inState .online))) = some (message 3 .all) ∧
      selectEntry (queued [] (inState .online)) = none := by decide +kernel

theorem witness_FrameStartSendsFrame :
    let s := claimed (.entry 7) (some 7) .held (queued [message 7 (.peer 2)] (inState .online))
    let r : FrameRequest :=
      { kind := .dataDirect, destination := 2, claimSlot := 7, sequence := 0, length := 3, payload := [0x11, 0x22, 0x33] }
    claimProgress s = some .held ∧ s.li.sensing ≠ .off ∧ s.li.tx = none ∧ findEntry s 7 = some (message 7 (.peer 2)) ∧
      s.fu.framer = .idle ∧ (run .frameStart s).fu.framer = .frame r ∧
      (run .frameStart s).li.tx.map (·.symbols.length) = some (82 + 24 + 16) ∧
      (let t := run .frameStart (setFramer .answer s)
       claimProgress t = some .mismatched ∧ t.te.queue.map (·.state) = [.waiting] ∧ t.fu.framer = .answer) ∧
      (let busy := fun n => run .frameStart (setFramer .answer
         (onAc (fun a => { a with collisions := n }) (claimed .orderReset (some 1) .held (inState .resync))))
       (busy 2).ac.collisions = 3 ∧ (busy 3).ac.station = .halted ∧
         (busy 3).notices.map (·.notice.kind) = [.collision, .addressConflict]) ∧
      (run .frameStart (claimed .orderReset (some 1) .held (inState .resync))).li.tx.map (·.symbols.length) = some 114 := by
  decide +kernel

/-- A frame or an answer that begins in the bit time whose active event has been taken makes the burst own; one that begins
later, or in a partial burst, does not. -/
theorem witness_transmission_marks_burst_of_its_bit_time :
    let held := fun s => claimed (.entry 7) (some 7) .held (queued [message 7 (.peer 2)] s)
    let due := fun s => setFramer (.answerDue { destination := 2, code := .accepted, echo := 5 } 100) s
    let own := fun s : State => s.li.burst.map (·.isOwn)
    let first := run (.activeEvent 0) (inState .online)
    first.li.burst = some { burst 1 with isOwn := false } ∧ first.li.tx = none ∧
      own (run .frameStart (held first)) = some true ∧ own (run .answerGapExpiry (due first)) = some true ∧
      own (run .answerGapExpiry (due (passTime 1 first))) = some false ∧
      own (run .answerGapExpiry (due (onLine { burst 1 with isPartial := true } (inState .online)))) = some false ∧
      own (run (.activeEvent 0) (run .answerGapExpiry (due (inState .online)))) = some true ∧
      (run .frameCandidate (run .frameStart (held first))).fu.deframer.phase = .discard := by decide +kernel

theorem witness_QuietRoundsAndRestWake :
    let s := fun n => onTracker (fun t => { t with unclaimed := n }) (inRound (inState .resync))
    let l := inState .listening
    (s 6).li.time ≤ slotStartTime (s 6) 8 ∧ (run .roundEnd (s 6)).ac.tracker.phase = .round ∧
      (run .roundEnd (s 6)).li.time = 164 ∧ needToSend (s 7) = true ∧ (run .roundEnd (s 7)).ac.tracker.phase = .rest ∧
      claimProgress (run .roundEnd (s 7)) = some .wake ∧
      needToSend (inState .online) = false ∧
      (let w := claimed (.entry 7) (some 1) .withdrawn (s 6)
       claimOpen w = false ∧ claimProgress (run .roundEnd w) = some .withdrawn ∧
         (run .leave (port .command none [] (run .roundEnd w))).ac.station = .leaving ∧
         claimProgress (run .slotStart w) = some .marked) ∧
      l.ac.tracker.phase = .unaligned ∧ l.ac.tracker.restDetect ≤ 8 * (2 * 4) * 8 + 16 ∧
      (run .restDetectExpiry l).li.time = 100 + 528 ∧ (run .restDetectExpiry l).ac.station = .resync ∧
      claimProgress (run .restDetectExpiry l) = some .wake := by decide +kernel

theorem witness_HoldOffExpires :
    let s := setHoldOff 2 (inState .online)
    let r := onTracker (fun t => { t with phase := .rest }) (queued [message 7 (.peer 2)] s)
    (peerEntry s 2).holdOff = some (.running 868) ∧ s.li.sensing ≠ .off ∧ claimOpen s = false ∧
      (run (.holdOffExpiry 2) s).li.time = 868 ∧ (peerEntry (run (.holdOffExpiry 2) s) 2).holdOff = none ∧
      (run (.holdOffExpiry 2) s).li.tx = none ∧ needToSend (run (.holdOffExpiry 2) r) = true ∧
      (run (.holdOffExpiry 2) r).li.tx.isSome = true ∧ (inState .halted).li.sensing = .off := by decide +kernel

/-- A hold-off expires during the mark of an own claim too, and changes neither. -/
theorem witness_HoldOffExpires_in_own_access :
    let s := sending .mark markSymbols (claimed (.entry 7) (some 7) .marked (setHoldOff 2 (inState .online)))
    let t := run (.holdOffExpiry 2) s
    (peerEntry s 2).holdOff = some (.running 868) ∧ s.li.sensing ≠ .off ∧ claimOpen s = true ∧
      (peerEntry t 2).holdOff = none ∧ t.li.tx = s.li.tx ∧ t.ac.tracker.access = s.ac.tracker.access := by decide +kernel

theorem test_rotation_worked_examples :
    rotate 0 [2, 0, 3, 1] = [2, 3, 1, 0] ∧ rotate 1 [2, 0, 3, 1] = [2, 0, 3, 1] ∧
      (resetOrder 1 (inState .online)).ac.order = [0, 2, 3, 1] := by decide +kernel

theorem witness_GuardStartsRound :
    let s := guarding 16 .absent (inState .online)
    GuardDue 16 s ∧ GuardDue 2 (guarding 2 .absent (inState .online)) ∧
      (run .guardComplete s).ac.tracker.roundStart = some 100 ∧
      (run .guardComplete (guarding 2 .absent (inState .online))).ac.tracker.roundStart = some 114 ∧
      (run .guardComplete (guarding 2 .absent (inState .leaving))).ac.station = .offline := by decide +kernel

theorem witness_OnlineAccessEnd :
    let h : FrameHeader := dataHeader
    let go := fun r o => run .guardComplete (onAccess (fun a => { a with observed := o }) (guarding 2 r (inState .online)))
    let own := fun c p => run .guardComplete (claimed c (some 7) p (guarding 2 .absent (inState .online)))
    let reset : FrameHeader := { h with kind := .orderReset, source := 3, destination := 63 }
    let body : OrderResetBody := { roster := 4, restart := true }
    (go (.header (.frame h) .good none) (some 4)).ac.order = [0, 3, 1, 2] ∧
      (go (.header (.frame h) .truncated none) none).ac.order = [0, 3, 1, 2] ∧
      (go (.header (.frame h) .good none) (some 5)).ac.station = .resync ∧
      (go (.header (.frame { h with claimSlot := 5 }) .good none) none).ac.station = .resync ∧
      (go (.header (.frame { h with source := 1 }) .good none) none).ac.station = .halted ∧
      (go (.header (.frame reset) .good (some body)) none).ac.order = [0, 1, 2, 3] ∧
      (go (.header (.frame reset) .good (some { body with roster := 5 })) none).notices.map (·.notice.kind) = [.rosterMismatch] ∧
      (go (.header (.frame reset) .body none) none).ac.station = .resync ∧
      (go (.header (.answer { source := 3, destination := 2, code := .full, echo := 0 }) .good none) (some 4)).ac.order
        = [0, 3, 1, 2] ∧
      (go (.header (.answer { source := 2, destination := 3, code := .full, echo := 0 }) .good none) (some 4)).ac.station = .resync ∧
      (go .headerInvalid (some 4)).ac.order = [0, 3, 1, 2] ∧ (go .truncated (some 3)).ac.station = .resync ∧
      (go .truncated (some 8)).ac.station = .resync ∧ (go .absent none).ac.order = [2, 0, 3, 1] ∧
      (own .orderReset .passed).ac.order = [0, 2, 3, 1] ∧ (own (.entry 7) .passed).ac.order = [2, 0, 3, 1] ∧
      (own .orderReset .mismatched).ac.station = .resync := by decide +kernel

/-- In ONLINE a restart-bearing ORDER-RESET that is applied sets its sender's last accepted sequence to NONE. -/
theorem witness_OnlineAccessEnd_restart :
    let reset : FrameHeader := { dataHeader with kind := .orderReset, source := 3, destination := 63 }
    let s := fun n restart => updatePeer 3 (fun p => { p with lastAccepted := some 5 })
      (guarding 2 (.header (.frame reset) .good (some { roster := n, restart := restart })) (inState .online))
    let last := fun n restart => (peerEntry (run .guardComplete (s n restart)) 3).lastAccepted
    GuardDue 2 (s 4 true) ∧ last 4 true = none ∧ last 4 false = some 5 ∧ last 5 true = some 5 := by decide +kernel

theorem witness_RepairAndLeavingAccessEnds :
    let reset : FrameHeader := { dataHeader with kind := .orderReset, source := 3, destination := 63 }
    let go := fun st n own => run .guardComplete (guarding 2
      (.header (.frame (if own then { reset with source := 1 } else reset)) .good (some { roster := n, restart := true })) (inState st))
    GuardDue 2 (guarding 2 .absent (inState .resync)) ∧
      (go .resync 4 false).ac.station = .online ∧ (go .listening 4 false).ac.order = [0, 1, 2, 3] ∧
      (go .resync 5 false).ac.station = .resync ∧ (go .listening 5 false).ac.station = .resync ∧
      (go .listening 4 true).ac.station = .halted ∧ (go .leaving 4 true).ac.station = .halted ∧
      (go .leaving 4 false).ac.station = .offline ∧
      (go .resync 4 false).notices.map (·.notice.kind) = [.orderResetSeen] ∧
      (go .listening 5 false).notices.map (·.notice.kind) = [.rosterMismatch] ∧
      (go .resync 4 true).notices.map (·.notice.kind) = [.addressConflict] ∧
      (run .guardComplete (guarding 2 .headerInvalid (inState .resync))).notices = [] ∧
      (run .guardComplete (claimed .orderReset (some 1) .passed (guarding 2 .absent (inState .resync)))).ac.order
        = [0, 2, 3, 1] ∧
      (run .guardComplete (claimed .orderReset (some 1) .mismatched (guarding 2 .absent (inState .resync)))).ac.station
        = .resync := by decide +kernel

/-! ### Delivery, notices, invariants -/

/-- An attempt whose frame has passed, at the access end. -/
def attempted (e : TxEntry) (w : Window) (s : State) : State :=
  setWindow w (claimed (.entry e.tag) (some 7) .passed (guarding 2 .absent (queued [e] s)))

theorem witness_AttemptOutcome :
    let e := { message 7 (.peer 2) with state := .inFlight, attempts := 1, sequence := some 0 }
    let go := fun e a => (run .guardComplete (attempted e (.judged .dataDirect 2 0 a) (inState .online))).te
    let s := attempted e .closed (inState .online)
    GuardDue 2 s ∧ (heldTags s).Nodup ∧ s.hp.submit.isSome = false ∧ findEntry s 7 = some e ∧
      (∀ p ∈ [(AnswerCode.accepted, MessageOutcome.delivered), (.duplicate, .delivered), (.present, .present),
          (.closed, .refused)], (go e (some p.1)).completions.map (·.outcome) = [p.2]) ∧
      (go e (some .full)).queue = [{ e with state := .waiting, lastAnswer := some .full }] ∧
      (go { e with attempts := 2 } (some .full)).completions.map (·.outcome) = [.full] ∧
      (go { e with attempts := 2 } (some .checkFail)).completions.map (·.outcome) = [.unanswered] ∧
      (go e none).queue = [{ e with state := .waiting }] ∧
      (go { e with cancelPending := true } none).completions.map (·.outcome) = [.cancelled] ∧
      (go { e with destination := .all } none).completions.map (·.outcome) = [.sent] ∧
      (run .guardComplete (updatePeer 2 (fun p => { p with unanswered := 2 }) s)).te.completions.map (·.outcome)
        = [.unanswered] := by decide +kernel

/-- The same attempt at a LEAVING station, which then flushes its queue; and a state in which the stuck event takes it. -/
theorem witness_AttemptOutcome_stuck_and_leaving :
    let e := { message 7 (.peer 2) with state := .inFlight, attempts := 1, sequence := some 0 }
    let two := fun st a => queued [e, message 8 (.peer 3)] (attempted e (.judged .dataDirect 2 0 a) (inState st))
    let stuck := onTracker (fun t => { t with guard := none }) (onLine (burst 20) (two .leaving (some .accepted)))
    let outcomes := fun t : State => t.te.completions.map fun c => (c.tag.toNat, c.outcome)
    let s := two .leaving none
    GuardDue 2 s ∧ (heldTags s).Nodup ∧ s.hp.submit.isSome = false ∧ PeersSound s ∧ findEntry s 7 = some e ∧
      outcomes (run .guardComplete (two .leaving (some .accepted))) = [(7, .delivered), (8, .withdrawn)] ∧
      outcomes (run .guardComplete s) = [(7, .withdrawn), (8, .withdrawn)] ∧
      stuck.li.sensing = .active ∧ stuck.li.tx = none ∧ (heldTags stuck).Nodup ∧ stuck.hp.submit.isSome = false ∧
      findEntry stuck 7 = some e := by decide +kernel

theorem witness_AttemptUpdatesPeer :
    let e := { message 7 (.peer 2) with state := .inFlight, attempts := 1, sequence := some 0 }
    let s := fun n => updatePeer 2 (fun p => { p with unanswered := n, nextSend := 15 }) (queued [e] (inState .online))
    findEntry (s 2) 7 = some e ∧ (peerEntry (applyOutcome 7 none (s 2)) 2).presence = .silent ∧
      (applyOutcome 7 none (s 2)).notices.map (·.notice.kind) = [.peerSilent] ∧
      (peerEntry (applyOutcome 7 none (s 3)) 2).unanswered = 3 ∧
      (peerEntry (applyOutcome 7 (some .full) (s 2)) 2).holdOff = some (.running 868) ∧
      (peerEntry (applyOutcome 7 (some .accepted) (s 2)) 2).nextSend = 0 ∧
      (let probe := queued [{ e with kind := .probe, length := 0, payload := [], sequence := none }] (s 2)
       (peerEntry (applyOutcome 7 none probe) 2).presence = .silent ∧
         (peerEntry (applyOutcome 7 (some .present) probe) 2).nextSend = 15) := by decide +kernel

/-- The outcome at the access end, at a station that goes on, halts or leaves; and a state in which the stuck event takes
it. -/
theorem witness_AttemptUpdatesPeer_at_access_end :
    let e := { message 7 (.peer 2) with state := .inFlight, attempts := 1, sequence := some 0 }
    let s := fun st a => updatePeer 2 (fun p => { p with unanswered := 2 })
      (attempted e (.judged .dataDirect 2 0 a) (inState st))
    let peer := fun s => peerEntry (run .guardComplete s) 2
    let conflict := onAccess fun a => { a with report := .header (.frame { dataHeader with source := 1 }) .good none }
    let stuck := onTracker (fun t => { t with guard := none }) (onLine (burst 20) (s .online none))
    GuardDue 2 (s .online none) ∧ claimProgress (s .online none) = some .passed ∧ findEntry (s .online none) 7 = some e ∧
      (peer (s .online none)).presence = .silent ∧ (peer (s .online none)).nextSend = 1 ∧
      (run .guardComplete (s .online none)).notices.map (·.notice.kind) = [.peerSilent] ∧
      (peer (s .online (some .full))).holdOff = some (.running (114 + 768)) ∧
      (peer (conflict (s .online (some .full)))).holdOff = some (.frozen 768) ∧
      (peer (s .leaving (some .full))).holdOff = some (.frozen 768) ∧ (peer (s .leaving (some .full))).nextSend = 1 ∧
      stuck.li.sensing = .active ∧ stuck.li.tx = none ∧ findEntry stuck 7 = some e := by decide +kernel

theorem witness_FinishingReturnsBlocksAndAdvances :
    let e := { message 7 (.peer 2) with length := 33, sequence := some 15 }
    let s := updatePeer 2 (fun p => { p with nextSend := 15 }) (queued [e] (inState .online))
    findEntry s 7 = some e ∧ (finishEntry 7 .sent false s).freeBlocks = 193 ∧
      (peerEntry (finishEntry 7 .sent false s) 2).nextSend = 0 ∧ (finishEntry 7 .sent false s).te.queue = [] := by
  decide +kernel

theorem witness_NoticeFoldsAppendsOrCounts :
    let n : Notice := { kind := .collision, subject := none, detail := none }
    let m : Notice := { kind := .lineFree, subject := none, detail := none }
    let r := fun x k l => ({ notice := x, repeats := k, lostAfter := l } : NoticeRecord)
    addNotice false n [r n 254 0] = [r n 255 0] ∧ addNotice false n [r n 255 0] = [r n 255 0] ∧
      addNotice true n [r n 0 0] = [r n 0 0, r n 0 0] ∧ addNotice true n [r m 0 0, r n 0 0] = [r m 0 0, r n 1 0] ∧
      addNotice false n [] = [r n 0 0] ∧ addNotice false n (List.replicate 15 (r m 0 0)) = List.replicate 15 (r m 0 0) ++ [r n 0 0] ∧
      addNotice false n (List.replicate 16 (r m 0 255)) = List.replicate 16 (r m 0 255) := by decide +kernel

/-- A record is under read after a TAKE-NOTICE with reply OK, and in no other transaction. -/
theorem test_under_read :
    underRead (decided .takeNotice .ok [] 0 (inState .online)) = true ∧
      underRead (decided .takeNotice .empty [] 0 (inState .online)) = false ∧
      underRead (decided .fetch .ok [] 0 (inState .online)) = false ∧ underRead (inState .online) = false := by
  decide +kernel

/-- Every invariant holds right after a JOIN, in a state that the statements of the laws speak of. -/
theorem witness_invariants_hold_after_join :
    let s := run .join (port .command none [] (inState .offline))
    (s.ac.station = .listening ∧ PoolSound s ∧ CapacityKept s ∧ CountsKept s ∧ TimersKept s ∧ PeersSound s) ∧
      TagsDistinct s ∧ OrderFormed s ∧ SilenceSound s ∧ OfflineQueueEmpty s ∧ InFlightClaimed s ∧ ResetHolds s ∧
      DeframerFollowsCandidate s ∧ s.fu.deframer.phase = .quiet := by
  refine ⟨?_, ?_⟩ <;> decide +kernel

/-- The deframer is out of QUIET with the candidate it deframes under way. -/
theorem witness_deframer_follows_candidate :
    let s := run .frameCandidate (onLine { burst 6 with candidate := false } (inState .online))
    DeframerFollowsCandidate s ∧ s.fu.deframer.phase = .hunt := by decide +kernel

/-- Every invariant holds with an entry IN-FLIGHT. -/
theorem witness_invariants_hold_in_flight :
    let s := run .slotStart (queued [message 7 (.peer 2)] (inRound (inState .online)))
    (inFlightEntries s).length = 1 ∧ PoolSound s ∧ TagsDistinct s ∧ SilenceSound s ∧ OfflineQueueEmpty s ∧
      InFlightClaimed s := by decide +kernel

/-- In OFFLINE no hold-off runs, since the table is at its first values. -/
theorem witness_silence_in_offline :
    SilenceSound (inState .offline) ∧ OfflineQueueEmpty (inState .offline) ∧ ResetHolds (inState .offline) ∧
      HoldOffsStopped (inState .offline) := by
  refine ⟨by decide +kernel, by decide +kernel, by decide +kernel, ?_⟩
  intro _ a expiry
  by_cases h : a < 32 <;> simp [peerEntry, inState, State.reset, h, PeerEntry.initial]

end Sys2Proof.Tests
end

section
/-! The order list (chapter 04): what rotation and reset to ascending do to it, and that an access end changes it by
nothing else. -/

namespace Sys2Proof.Machine

/-! ### Rotation (R55) -/

/-- An address moves from its position to the end, and the others keep their order. -/
theorem rotate_append_cons {a : Nat} {l : List Nat} (h : a ∉ l) (r : List Nat) :
    rotate a (l ++ a :: r) = l ++ r ++ [a] := by
  simp [rotate, List.erase_append_right _ h]

/-- The address at the end stays there. -/
theorem rotate_append_singleton {a : Nat} {l : List Nat} (h : a ∉ l) : rotate a (l ++ [a]) = l ++ [a] := by
  simpa using rotate_append_cons h []

/-- An address that is not in the list moves nothing. -/
theorem rotate_of_not_mem {a : Nat} {l : List Nat} (h : a ∉ l) : rotate a l = l := if_neg h

/-- Rotation adds no address, removes none and repeats none. -/
theorem rotate_perm (a : Nat) (l : List Nat) : (rotate a l).Perm l := by
  by_cases h : a ∈ l
  · rw [rotate, if_pos h]
    exact (List.perm_append_singleton a _).trans (List.perm_cons_erase h).symm
  · rw [rotate_of_not_mem h]

/-! ### What the operations of an access end write to the list -/

@[simp] theorem rotateOrder_ac (a : Nat) (s : State) :
    (rotateOrder a s).ac = { s.ac with order := rotate a s.ac.order } := rfl

@[simp] theorem resetOrder_ac (sender : Nat) (s : State) :
    (resetOrder sender s).ac = { s.ac with order := rotate sender (List.range s.ac.setup.roster) } := rfl

@[simp] theorem diverged_ac (subject : Option Nat) (s : State) :
    (diverged subject s).ac = { s.ac with station := .resync } := by
  simp [diverged]

@[simp] theorem applyOrderReset_ac (h : FrameHeader) (body : OrderResetBody) (s : State) :
    (applyOrderReset h body s).ac =
      { s.ac with station := .online, order := rotate h.source (List.range s.ac.setup.roster) } := by
  simp only [applyOrderReset]
  split <;> simp

/-! ### The list before and after an access end -/

/-- The two operations of R55, or none: the list of `t` is that of `s`, a rotation of it, or the ascending list with its
sender rotated. -/
def OrderRotatedOrReset (s t : State) : Prop :=
  t.ac.order = s.ac.order ∨ (∃ a, t.ac.order = rotate a s.ac.order) ∨
    ∃ a, t.ac.order = rotate a (List.range s.ac.setup.roster)

namespace OrderRotatedOrReset

theorem of_kept {s t : State} (h : t.ac.order = s.ac.order) : OrderRotatedOrReset s t := .inl h

theorem of_rotated {s t : State} {a : Nat} (h : t.ac.order = rotate a s.ac.order) : OrderRotatedOrReset s t :=
  .inr (.inl ⟨a, h⟩)

theorem of_reset {s t : State} {a : Nat} (h : t.ac.order = rotate a (List.range s.ac.setup.roster)) :
    OrderRotatedOrReset s t := .inr (.inr ⟨a, h⟩)

/-- Only the list and the roster size before, and the list after, matter. -/
theorem of_eq {s q r t : State} (h : OrderRotatedOrReset q r) (hq : q.ac.order = s.ac.order)
    (hset : q.ac.setup = s.ac.setup) (ht : t.ac.order = r.ac.order) : OrderRotatedOrReset s t := by
  simpa [OrderRotatedOrReset, hq, hset, ht] using h

end OrderRotatedOrReset

open OrderRotatedOrReset

/-- A good ORDER-RESET is applied, or it leaves the list to what is done instead (R65, R66). -/
theorem takeOrderReset_order (h : FrameHeader) (body : OrderResetBody) {other : State → State} (s : State)
    (hother : ∀ t, (other t).ac.order = t.ac.order) : OrderRotatedOrReset s (takeOrderReset h body other s) := by
  unfold takeOrderReset
  split
  case isTrue => exact of_reset (a := h.source) (by simp)
  case isFalse => exact of_kept (by simp [hother])

/-- A DATA or PROBE header rotates its source or diverges (R61). -/
theorem verifyHeader_order (h : FrameHeader) (s : State) : OrderRotatedOrReset s (verifyHeader h s) := by
  simp only [verifyHeader]
  split_ifs
  · exact of_kept (by simp)
  · exact of_rotated rfl
  · exact of_kept (by simp)

/-- A frame whose header was not read rotates the owner of the mark slot or diverges (R63). -/
theorem rotateByMark_order (s : State) : OrderRotatedOrReset s (rotateByMark s) := by
  unfold rotateByMark
  split
  case h_1 => exact of_rotated rfl
  case h_2 => exact of_kept (by simp)

/-- An answer rotates its destination or diverges (R64). -/
theorem placeAnswer_order (h : AnswerHeader) (s : State) : OrderRotatedOrReset s (placeAnswer h s) := by
  unfold placeAnswer
  split
  case h_1 =>
    split
    · exact of_rotated rfl
    · exact of_kept (by simp)
  case h_2 => exact of_kept (by simp)

/-- The own frame that passed resets the list or rotates the own address, and a wake leaves it (R58). -/
theorem ownFrameEnd_order (s : State) : OrderRotatedOrReset s (ownFrameEnd s) := by
  unfold ownFrameEnd
  split
  case h_1 => exact of_reset rfl
  case h_2 => exact of_rotated rfl
  case h_3 => exact of_kept rfl
  case h_4 => exact of_kept rfl

/-- Access end in ONLINE, along the cases of R56. -/
theorem onlineEnd_order (s : State) : OrderRotatedOrReset s (onlineEnd s) := by
  unfold onlineEnd
  split
  case isTrue => exact of_kept (by simp)
  split
  case isTrue => exact of_kept (by simp)
  split
  case isTrue => exact ownFrameEnd_order s
  split
  case h_1 h _ _ _ =>
    split
    · split
      · exact takeOrderReset_order _ _ s fun _ => rfl
      · exact of_kept (by simp)
    · exact verifyHeader_order h s
  case h_2 h _ _ _ => exact placeAnswer_order h s
  case h_3 => exact rotateByMark_order s
  case h_4 => exact rotateByMark_order s
  case h_5 => exact of_kept rfl

/-- Access end in RESYNC (R68). -/
theorem resyncEnd_order (s : State) : OrderRotatedOrReset s (resyncEnd s) := by
  unfold resyncEnd
  split
  case isTrue => exact of_kept rfl
  split
  case isTrue => exact of_kept (by simp)
  split
  case isTrue => exact of_reset (a := ownAddress s) (by simp)
  split
  case h_1 => exact takeOrderReset_order _ _ s fun _ => rfl
  case h_2 => exact of_kept rfl

/-- The first access end of a LISTENING station (R70). -/
theorem listeningEnd_order (s : State) : OrderRotatedOrReset s (listeningEnd s) := by
  unfold listeningEnd
  split
  case isTrue => exact of_kept (by simp)
  split
  case h_1 => exact takeOrderReset_order _ _ s fun _ => by simp
  case h_2 => exact of_kept (by simp)

/-- The access end that ends LEAVING keeps the list (R71, R84, R85). -/
theorem leavingEnd_order (s : State) : (leavingEnd s).ac.order = s.ac.order := by
  unfold leavingEnd
  split <;> simp

/-- The access end at the AC, by station state (R56, R68, R70, R71). -/
theorem accessEndAtAc_order (s : State) : OrderRotatedOrReset s (accessEndAtAc s) := by
  unfold accessEndAtAc
  cases s.ac.station with
  | listening => exact listeningEnd_order s
  | resync => exact resyncEnd_order s
  | online => exact onlineEnd_order s
  | leaving => exact of_kept (leavingEnd_order s)
  | offline => exact of_kept rfl
  | halted => exact of_kept rfl

/-- The outcome of the own claim before, and the start of a round after, leave the list to the AC (R45). -/
theorem accessEnd_order (m : Nat) (s : State) : OrderRotatedOrReset s (accessEnd m s) := by
  obtain ⟨-, -, -, -, -, -, -, -, -, hkept, -, -⟩ := accessEnd_keeps m s
  exact (accessEndAtAc_order (takeOutcome s)).of_eq (by simp) (by simp) hkept

/-- The bit times up to the guard's completion leave the list (R36). -/
theorem completeGuard_order (count : Nat) (s : State) : OrderRotatedOrReset s (completeGuard count s) :=
  (accessEnd_order _ (passTime (guardBits - count) s)).of_eq (by simp) (by simp) rfl

/-- GUARD_COMPLETE completes a guard that is counted in QUIET, with no transmission under way and no claim unsettled;
otherwise it does not come (R36, R56). -/
theorem exec_guardComplete_cases {s t : State} (h : exec .guardComplete s = .next t) :
    t = s ∨ ∃ count, s.ac.tracker.guard = some count ∧ s.li.sensing = .quiet ∧ guardCounts s.ac.tracker = true ∧
      driving s = false ∧ claimUnsettled s = false ∧ t = completeGuard count s := by
  simp only [exec, execGuardComplete, Host.Outcome.next.injEq] at h
  split at h
  case h_1 count hguard =>
    split at h
    case isTrue hdue =>
      simp only [Bool.and_eq_true, beq_iff_eq, Bool.not_eq_true'] at hdue
      obtain ⟨⟨⟨hquiet, hcounts⟩, hreleased⟩, hsettled⟩ := hdue
      exact .inr ⟨count, hguard, hquiet, hcounts, hreleased, hsettled, h.symm⟩
    case isFalse => exact .inl h.symm
  case h_2 => exact .inl h.symm

/-- An access end changes the list by a rotation or a reset to ascending, or not at all (R55). -/
theorem exec_guardComplete_order {s t : State} (h : exec .guardComplete s = .next t) : OrderRotatedOrReset s t := by
  obtain rfl | ⟨count, -, -, -, -, -, rfl⟩ := exec_guardComplete_cases h
  · exact of_kept rfl
  · exact completeGuard_order count s

/-- The spec's examples with N = 4: an ORDER-RESET from station 3, and one from station 1 (R55). -/
theorem resetOrder_of_four {s : State} (h : s.ac.setup.roster = 4) :
    (resetOrder 3 s).ac.order = [0, 1, 2, 3] ∧ (resetOrder 1 s).ac.order = [0, 2, 3, 1] := by
  simp only [resetOrder_ac, h]
  decide

/-- Settles O46: the operations by the equations of `rotate` and `applyOrderReset`, the access end by the case split of
each station state's access end. -/
theorem rotationAndReset : Obligations.RotationAndReset :=
  ⟨fun a l r h => rotate_append_cons h r, fun a l h => rotate_append_singleton h,
    fun a l => ⟨rotate_perm a l, (rotate_perm a l).length_eq⟩, fun h body s => by simp,
    fun s => ⟨by decide, resetOrder_of_four⟩, fun s t h => exec_guardComplete_order h⟩

end Sys2Proof.Machine
end

section
/-! The setup record (chapter 05): the decision of SETUP at its sixth parameter byte, and a command abandoned before its
last one. -/

namespace Sys2Proof.Machine

/-! ### The parameter bytes of a transaction (R156, R158) -/

theorem awaitsLast_iff {c : Command} {s : State} : awaitsLast c s = true ↔
    s.hp.transaction = .parameters ∧ s.hp.command = some c ∧ s.hp.parameters.length + 1 = c.parameterCount := by
  simp [awaitsLast, and_assoc]

/-- The last parameter byte of a command brings its decision (R156). -/
theorem exec_byteReceived_of_awaitsLast {c : Command} {s : State} (h : awaitsLast c s = true) (b : Byte) :
    exec (.byteReceived b) s = .next (decide_ c (takeParameter b s)) := by
  obtain ⟨htransaction, hcommand, hlast⟩ := awaitsLast_iff.mp h
  simp [exec, execByteReceived, receiveByte, receiveParameter, htransaction, hcommand, ← hlast]

/-- A reply at the last parameter byte changes the Host Port and nothing else (R156). -/
theorem respond_takeParameter (r : Reply) (data : List Byte) (b : Byte) (s : State) :
    respond r data (takeParameter b s) = { s with hp := s.hp.answeredAfter b r data } := rfl

/-- A command given up before its last parameter byte leaves the port between transactions, with its mask (R158). -/
theorem exec_selHigh_of_parameters {s : State} (h : s.hp.transaction = .parameters) :
    exec .selHigh s = .next { s with hp := HostPort.between s.hp.mask } := by
  simp only [exec, execSelHigh, endTransaction, h]
  rfl

/-! ### The decision of SETUP (R77, R78) -/

/-- The ranges of the setup fields, in the bytes that ask for them: a byte holds no hold-off above 255 (R77, R183). -/
theorem setupOf_inRange_iff (a n r sl l h : Byte) : (setupOf [a, n, r, sl, l, h]).inRange = true ↔
    2 ≤ n.toNat ∧ n.toNat ≤ 32 ∧ a.toNat < n.toNat ∧ r.toNat ≤ 5 ∧ 6 ≤ sl.toNat ∧ sl.toNat ≤ 16
      ∧ 1 ≤ l.toNat ∧ l.toNat ≤ 15 ∧ 1 ≤ h.toNat := by
  have hbyte : h.toNat ≤ 255 := Nat.le_of_lt_succ h.isLt
  simp [SetupRecord.inRange, setupOf, parameter, hbyte, and_assoc]

theorem decideSetup_of_not_offline {s : State} (h : s.ac.station ≠ .offline) :
    decideSetup s = respond .wrongState [] s := by
  simp [decideSetup, h]

theorem decideSetup_of_outOfRange {s : State} (h : s.ac.station = .offline)
    (hrange : ¬(setupOf s.hp.parameters).inRange = true) : decideSetup s = respond .badSetup [] s := by
  simp [decideSetup, h, hrange]

theorem decideSetup_of_inRange {s : State} (h : s.ac.station = .offline)
    (hrange : (setupOf s.hp.parameters).inRange = true) :
    decideSetup s = respond .ok [] (onAc (fun ac => { ac with setup := setupOf s.hp.parameters, order := [] }) s) := by
  simp [decideSetup, h, hrange]

theorem exec_setup_of_awaitsLast {s : State} (h : awaitsLast .setup s = true) (b : Byte) :
    exec (.setup b) s = .next (decideSetup (takeParameter b s)) := by
  simp [exec, execSetup, h]

/-- Settles O16: the sixth byte brings `decideSetup` either way, and its three branches are R78's three tests in order. -/
theorem setupStoresRecord : Obligations.SetupStoresRecord := by
  refine ⟨fun a n r sl l h s htransaction hcommand hparameters => ?_, fun s => exec_selHigh_of_parameters⟩
  have hlast : awaitsLast .setup s = true := awaitsLast_iff.mpr ⟨htransaction, hcommand, by rw [hparameters]; rfl⟩
  have hbytes : (takeParameter h s).hp.parameters = [a, n, r, sl, l, h] := by simp [hparameters]
  have hrange := setupOf_inRange_iff a n r sl l h
  rw [← hbytes] at hrange
  rw [exec_byteReceived_of_awaitsLast hlast, exec_setup_of_awaitsLast hlast]
  refine ⟨rfl, fun hstation => ?wrongState, fun hoffline hout => ?badSetup, fun hoffline hin => ?ok⟩
  case wrongState => rw [decideSetup_of_not_offline (s := takeParameter h s) hstation, respond_takeParameter]
  case badSetup =>
    rw [decideSetup_of_outOfRange (s := takeParameter h s) hoffline (mt hrange.mp hout), respond_takeParameter]
  case ok =>
    rw [decideSetup_of_inRange (s := takeParameter h s) hoffline (hrange.mpr hin), hbytes]
    rfl

end Sys2Proof.Machine
end

section
/-! The gate of a Peer Table entry (chapter 06): the decision of GATE at its setting byte. -/

namespace Sys2Proof.Machine

theorem isPeer_iff {s : State} {a : Nat} :
    isPeer s a = true ↔ a < s.ac.setup.roster ∧ a ≠ s.ac.setup.address := by
  rw [isPeer, Bool.and_eq_true, decide_eq_true_iff, bne_iff_ne]
  rfl

/-- A reply at the last parameter byte, with a change of one entry, leaves all but the Host Port and that entry (R156). -/
theorem respond_updatePeer_takeParameter (r : Reply) (data : List Byte) (a : Nat) (f : PeerEntry → PeerEntry) (b : Byte)
    (s : State) :
    respond r data (updatePeer a f (takeParameter b s)) =
      { s with hp := s.hp.answeredAfter b r data, peers := s.peers.setIfInBounds a (f (peerEntry s a)) } := rfl

/-! ### The decision of GATE (R97) -/

theorem decideGate_of_offline {s : State} (h : s.ac.station = .offline) :
    decideGate s = respond .wrongState [] s := by
  simp [decideGate, h]

theorem decideGate_of_not_peer {s : State} {a b : Byte} (hstation : s.ac.station ≠ .offline)
    (hbytes : s.hp.parameters = [a, b]) (hpeer : ¬isPeer s a.toNat = true) :
    decideGate s = respond .badAddress [] s := by
  simp [decideGate, parameter, hstation, hbytes, hpeer]

theorem decideGate_of_peer {s : State} {a b : Byte} (hstation : s.ac.station ≠ .offline)
    (hbytes : s.hp.parameters = [a, b]) (hpeer : isPeer s a.toNat = true) :
    decideGate s = respond .ok [] (updatePeer a.toNat (fun e => { e with gate := gateOf b }) s) := by
  simp [decideGate, parameter, hstation, hbytes, hpeer]

theorem exec_gate_of_awaitsLast {s : State} (h : awaitsLast .gate s = true) (b : Byte) :
    exec (.gate b) s = .next (decideGate (takeParameter b s)) := by
  simp [exec, execGate, h]

/-- Settles O22: the second byte brings `decideGate` either way, and its three branches are R97's three tests in order. -/
theorem gateSetsPeerGate : Obligations.GateSetsPeerGate := by
  refine ⟨fun a b s htransaction hcommand hparameters => ?_, fun s => exec_selHigh_of_parameters⟩
  have hlast : awaitsLast .gate s = true := awaitsLast_iff.mpr ⟨htransaction, hcommand, by rw [hparameters]; rfl⟩
  have hbytes : (takeParameter b s).hp.parameters = [a, b] := by simp [hparameters]
  have hpeer : isPeer (takeParameter b s) a.toNat = true ↔
      a.toNat < s.ac.setup.roster ∧ a.toNat ≠ s.ac.setup.address := isPeer_iff
  rw [exec_byteReceived_of_awaitsLast hlast, exec_gate_of_awaitsLast hlast]
  refine ⟨rfl, fun hoffline => ?wrongState, fun hstation hother => ?badAddress, fun hstation hroster hown => ?ok⟩
  case wrongState => rw [decideGate_of_offline (s := takeParameter b s) hoffline, respond_takeParameter]
  case badAddress =>
    rw [decideGate_of_not_peer (s := takeParameter b s) hstation hbytes (mt hpeer.mp hother), respond_takeParameter]
  case ok =>
    rw [decideGate_of_peer (s := takeParameter b s) hstation hbytes (hpeer.mpr ⟨hroster, hown⟩),
      respond_updatePeer_takeParameter]
    rfl

end Sys2Proof.Machine
end

section
/-! Reception at the host port (chapter 08): the decision of RELEASE at its command byte, and the end of its transaction. -/

namespace Sys2Proof.Machine

/-! ### A command without parameters, and the end of a transaction (R156, R158) -/

theorem awaitsCommand_iff {s : State} : awaitsCommand s = true ↔ s.hp.transaction = .command := by
  simp [awaitsCommand]

/-- The command byte of a command without parameters brings its decision (R156). -/
theorem exec_byteReceived_of_awaitsCommand {b : Byte} {c : Command} {s : State} (h : awaitsCommand s = true)
    (hcode : commandOf b = some c) (hcount : c.parameterCount = 0) :
    exec (.byteReceived b) s = .next (decide_ c (takeCommand (some c) s)) := by
  simp [exec, execByteReceived, receiveByte, receiveCommand, awaitsCommand_iff.mp h, hcode, hcount]

/-- A reply at the command byte changes the Host Port and nothing else (R156). -/
theorem respond_takeCommand (r : Reply) (data : List Byte) (c : Option Command) (s : State) :
    respond r data (takeCommand c s) = { s with hp := s.hp.answered c r data } := rfl

/-- A transaction given up before its command byte leaves the port between transactions, with its mask (R158). -/
theorem exec_selHigh_of_awaitsCommand {s : State} (h : awaitsCommand s = true) :
    exec .selHigh s = .next { s with hp := HostPort.between s.hp.mask } := by
  simp only [exec, execSelHigh, endTransaction, awaitsCommand_iff.mp h]
  rfl

/-- A decided command whose end-of-transaction step does nothing leaves the port between transactions, with its mask, and
what its decision did stays (R158). -/
theorem exec_selHigh_of_decided {s : State} (h : s.hp.transaction = .decided) (hstep : endStep s = s) :
    exec .selHigh s = .next { s with hp := HostPort.between s.hp.mask } := by
  simp only [exec, execSelHigh, endTransaction, h, hstep]
  rfl

/-! ### The decision of RELEASE (R140) -/

theorem decideRelease_of_empty {s : State} (h : s.re.ring = []) : decideRelease s = respond .empty [] s := by
  simp [decideRelease, h]

theorem decideRelease_of_cons {s : State} {r : RxRecord} {rest : List RxRecord} (h : s.re.ring = r :: rest) :
    decideRelease s =
      respond .ok [] (onFree (· + blocksFor r.length) (onRe (fun e => { e with ring := rest }) s)) := by
  simp [decideRelease, h]

theorem exec_release_of_awaitsCommand {s : State} (h : awaitsCommand s = true) :
    exec .release s = .next (decideRelease (takeCommand (some .release) s)) := by
  simp [exec, execRelease, h]

/-- RELEASE has no end-of-transaction step: the record went at its decision point (R140, R158). -/
theorem endStep_of_release {s : State} (h : s.hp.command = some .release) : endStep s = s := by
  simp [endStep, h]

/-- Settles O23: the command byte brings `decideRelease` either way, whose two branches are R140's empty ring and oldest
record; before that byte there is nothing to undo, and after it RELEASE has no end-of-transaction step. -/
theorem releaseRemovesOldestRecord : Obligations.ReleaseRemovesOldestRecord := by
  intro s htransaction
  have hawaits : awaitsCommand s = true := awaitsCommand_iff.mpr htransaction
  rw [exec_byteReceived_of_awaitsCommand hawaits (c := .release) (by decide) (by decide),
    exec_release_of_awaitsCommand hawaits]
  refine ⟨rfl, fun hempty => ?empty, fun r rest hring => ?ok, exec_selHigh_of_awaitsCommand hawaits,
    fun t hdecided hrelease => exec_selHigh_of_decided hdecided (endStep_of_release hrelease)⟩
  case empty =>
    rw [decideRelease_of_empty (s := takeCommand (some .release) s) hempty, respond_takeCommand]
  case ok =>
    rw [decideRelease_of_cons (s := takeCommand (some .release) s) hring]
    rfl

end Sys2Proof.Machine
end

section
/-! The host port (chapter 10): READ-ORDER at its command byte, MASK at its third parameter byte, and what keeps the
attention mask. -/

namespace Sys2Proof.Machine

/-! ### The order list read by the host (R161) -/

theorem decideReadOrder_of_empty {s : State} (h : s.ac.order = []) : decideReadOrder s = respond .empty [] s := by
  simp [decideReadOrder, h]

theorem decideReadOrder_of_nonempty {s : State} (h : s.ac.order ≠ []) :
    decideReadOrder s = respond .ok (s.ac.order.map toByte) s := by
  simp [decideReadOrder, h]

theorem exec_readOrder_of_awaitsCommand {s : State} (h : awaitsCommand s = true) :
    exec .readOrder s = .next (decideReadOrder (takeCommand (some .readOrder) s)) := by
  simp [exec, execReadOrder, h]

/-- A list that is formed and not empty holds as many addresses as the roster (R54). -/
theorem order_length_of_formed {s : State} (hformed : OrderFormed s) (h : s.ac.order ≠ []) :
    s.ac.order.length = s.ac.setup.roster := by
  obtain hempty | hperm := hformed
  · exact absurd hempty h
  · simpa [ascending, roster] using hperm.length_eq

/-- A SETUP whose reply is OK has emptied the list (R78). -/
theorem decideSetup_order_of_ok {s : State} {data : List Byte} {clocked : Nat}
    (h : (decideSetup s).hp.stream = some { reply := .ok, data := data, clocked := clocked }) :
    (decideSetup s).ac.order = [] := by
  by_cases hoffline : s.ac.station = .offline
  case neg => simp [decideSetup_of_not_offline hoffline] at h
  by_cases hrange : (setupOf s.hp.parameters).inRange = true
  case neg => simp [decideSetup_of_outOfRange hoffline hrange] at h
  simp [decideSetup_of_inRange hoffline hrange]

/-- The station reset of a RESTART is taken at SEL high (R88, R158). -/
theorem exec_selHigh_of_restart {s : State} (hdecided : s.hp.transaction = .decided)
    (hrestart : s.hp.command = some .restart) : exec .selHigh s = .next (closeTransaction (stationReset s)) := by
  simp [exec, execSelHigh, endTransaction, hdecided, endStep, hrestart]

/-- GUARD_COMPLETE, and with it an access end, leaves the Host Port. -/
theorem exec_guardComplete_hp {s t : State} (h : exec .guardComplete s = .next t) : t.hp = s.hp := by
  obtain rfl | ⟨count, -, -, -, -, -, rfl⟩ := exec_guardComplete_cases h <;> simp

/-- Settles O13: the command byte brings `decideReadOrder` either way, whose two branches are R161's empty list and list
from the front; the resets and an accepted SETUP write the empty list, and an access end leaves the Host Port. -/
theorem readOrderReturnsList : Obligations.ReadOrderReturnsList := by
  refine ⟨fun s htransaction => ?reply, fun s t h => ?hardReset, fun s t hdecided hrestart h => ?restart,
    fun b s t htransaction hcommand hparameters h hok => ?setup, rfl, fun s t h => exec_guardComplete_hp h⟩
  case reply =>
    have hawaits : awaitsCommand s = true := awaitsCommand_iff.mpr htransaction
    rw [exec_byteReceived_of_awaitsCommand hawaits (c := .readOrder) (by decide) (by decide),
      exec_readOrder_of_awaitsCommand hawaits]
    refine ⟨rfl, fun hempty => ?_, fun hlist => ⟨?_, fun hformed => ?_⟩⟩
    · rw [decideReadOrder_of_empty (s := takeCommand (some .readOrder) s) hempty, respond_takeCommand]
    · rw [decideReadOrder_of_nonempty (s := takeCommand (some .readOrder) s) hlist, respond_takeCommand]
      rfl
    · rw [List.length_map, order_length_of_formed hformed hlist]
  case hardReset =>
    obtain rfl : hardResetState s = t := Host.Outcome.next.inj h
    rfl
  case restart =>
    obtain rfl := Host.Outcome.next.inj ((exec_selHigh_of_restart hdecided hrestart).symm.trans h)
    rfl
  case setup =>
    have hlast : awaitsLast .setup s = true := awaitsLast_iff.mpr ⟨htransaction, hcommand, by rw [hparameters]; rfl⟩
    obtain rfl := Host.Outcome.next.inj ((exec_setup_of_awaitsLast hlast b).symm.trans h)
    exact decideSetup_order_of_ok hok

/-! ### The decision of MASK (R170), and ATTN (R171) -/

theorem exec_mask_of_awaitsLast {s : State} (h : awaitsLast .mask s = true) (n : Byte) :
    exec (.mask n) s = .next (decideMask (takeParameter n s)) := by
  simp [exec, execMask, h]

/-- A byte of 0 disables its class, any other value enables it (R170). -/
theorem maskOf_flags (c r n : Byte) : maskOf [c, r, n] =
    { completions := decide (c ≠ 0), receptions := decide (r ≠ 0), notices := decide (n ≠ 0) } := by
  simp [maskOf, parameter, bne, beq_eq_decide]

/-- The flags take their new values, and but for the reply nothing else changes (R170). -/
theorem decideMask_takeParameter {s : State} {c r : Byte} (h : s.hp.parameters = [c, r]) (n : Byte) :
    decideMask (takeParameter n s) = { s with hp := { s.hp.answeredAfter n .ok [] with
      mask := { completions := decide (c ≠ 0), receptions := decide (r ≠ 0), notices := decide (n ≠ 0) } } } := by
  have hbytes : (takeParameter n s).hp.parameters = [c, r, n] := by simp [h]
  rw [← maskOf_flags, ← hbytes]
  rfl

/-- The command byte of a command with parameters opens them (R156). -/
theorem exec_byteReceived_opens_parameters {b : Byte} {c : Command} {s : State} (h : awaitsCommand s = true)
    (hcode : commandOf b = some c) (hcount : c.parameterCount ≠ 0) :
    exec (.byteReceived b) s = .next { s with hp := { s.hp with
      transaction := .parameters, command := some c, parameters := [], sdo := some (s.hp.summary.getD 0) } } := by
  simp only [exec, execByteReceived, receiveByte, awaitsCommand_iff.mp h, receiveCommand, hcode, if_neg hcount]
  rfl

theorem completionPending_iff {s : State} : completionPending s = true ↔ s.te.completions ≠ [] := by
  simp [completionPending]

theorem receivePending_iff {s : State} : receivePending s = true ↔ s.re.ring ≠ [] := by
  simp [receivePending]

theorem noticePending_iff {s : State} : noticePending s = true ↔ s.notices ≠ [] := by
  simp [noticePending]

/-- ATTN is asserted exactly while an enabled class is non-empty (R171). -/
theorem attention_iff (s : State) : attention s = true ↔
    (s.hp.mask.completions = true ∧ s.te.completions ≠ []) ∨ (s.hp.mask.receptions = true ∧ s.re.ring ≠ []) ∨
      (s.hp.mask.notices = true ∧ s.notices ≠ []) := by
  simp [attention, completionPending_iff, receivePending_iff, noticePending_iff, or_assoc]

/-! ### What keeps the attention mask: the host's commands -/

@[simp] theorem clockStream_mask (s : State) : (clockStream s).hp.mask = s.hp.mask := rfl

/-- Every decision but that of MASK keeps the mask (R170). -/
theorem decide_mask {c : Command} (hc : c ≠ .mask) (s : State) : (decide_ c s).hp.mask = s.hp.mask := by
  cases c with
  | status | restart => rfl
  | setup => simp only [decide_, decideSetup]; split_ifs <;> rfl
  | join => simp only [decide_, decideJoin]; split_ifs <;> simp
  | leave => simp only [decide_, decideLeave]; split_ifs <;> simp
  | submit => simp only [decide_, decideSubmit]; split <;> rfl
  | cancel =>
    simp only [decide_, decideCancel]
    repeat' split
    all_goals simp
  | takeCompletion => simp only [decide_, decideTakeCompletion]; split <;> rfl
  | fetch => simp only [decide_, decideFetch]; split <;> rfl
  | release => simp only [decide_, decideRelease]; split <;> rfl
  | takeNotice => simp only [decide_, decideTakeNotice]; split <;> rfl
  | gate => simp only [decide_, decideGate]; split_ifs <;> rfl
  | readPeer => simp only [decide_, decideReadPeer]; split_ifs <;> rfl
  | readOrder => simp only [decide_, decideReadOrder]; split_ifs <;> rfl
  | mask => exact absurd rfl hc

/-- The command byte of a command without parameters, due or not, keeps the mask: MASK has parameters (R156). -/
theorem decideAtCommand_mask {c : Command} (hc : c ≠ .mask) (s : State) :
    (if awaitsCommand s then decide_ c (takeCommand (some c) s) else s).hp.mask = s.hp.mask := by
  split_ifs <;> simp [decide_mask hc]

/-- The last parameter byte of a command other than MASK, due or not, keeps the mask (R156). -/
theorem decideAtLast_mask {c : Command} (hc : c ≠ .mask) (b : Byte) (s : State) :
    (if awaitsLast c s then decide_ c (takeParameter b s) else s).hp.mask = s.hp.mask := by
  split_ifs <;> simp [decide_mask hc]

/-- A byte received in COMMAND: a decision at this byte is that of a command without parameters (R156). -/
theorem receiveCommand_mask (b : Byte) (s : State) : (receiveCommand b s).hp.mask = s.hp.mask := by
  unfold receiveCommand
  split
  case h_1 => rfl
  case h_2 c _ =>
    by_cases hcount : c.parameterCount = 0
    · have hc : c ≠ .mask := by rintro rfl; exact absurd hcount (by decide)
      simp [hcount, decide_mask hc]
    · simp [hcount]

/-- A byte received in PARAMETERS keeps the mask, unless it is the third of a MASK (R156, R170). -/
theorem receiveParameter_mask {s : State} (h : ¬(s.hp.command = some .mask ∧ 2 ≤ s.hp.parameters.length)) (b : Byte) :
    (receiveParameter b s).hp.mask = s.hp.mask := by
  unfold receiveParameter
  split
  case h_1 c hcommand =>
    by_cases hlast : c.parameterCount ≤ (takeParameter b s).hp.parameters.length
    · have hc : c ≠ .mask := by
        rintro rfl
        exact h ⟨hcommand, by simpa [Command.parameterCount] using hlast⟩
      rw [if_pos hlast, decide_mask hc]
      rfl
    · rw [if_neg hlast]
      rfl
  case h_2 => rfl

theorem receiveDecided_mask (b : Byte) (s : State) : (receiveDecided b s).hp.mask = s.hp.mask := by
  unfold receiveDecided
  split_ifs <;> rfl

/-- A received byte keeps the mask, unless it is the third parameter byte of a MASK (R170). -/
theorem receiveByte_mask {s : State}
    (h : ¬(s.hp.transaction = .parameters ∧ s.hp.command = some .mask ∧ 2 ≤ s.hp.parameters.length)) (b : Byte) :
    (receiveByte b s).hp.mask = s.hp.mask := by
  unfold receiveByte
  cases htransaction : s.hp.transaction with
  | idle => rfl
  | command => exact receiveCommand_mask b s
  | parameters => exact receiveParameter_mask (fun hthird => h ⟨htransaction, hthird⟩) b
  | decided => exact receiveDecided_mask b s
  | dropped => rfl

theorem beginTransaction_mask (s : State) : (beginTransaction s).hp.mask = s.hp.mask := by
  unfold beginTransaction
  split_ifs <;> rfl

theorem endSubmit_mask (o : OpenSubmit) (s : State) : (endSubmit o s).hp.mask = s.hp.mask := by
  simp only [endSubmit]
  split_ifs <;> simp

/-- The end-of-transaction steps keep the mask; the station reset of a RESTART does by R88. -/
theorem endStep_mask (s : State) : (endStep s).hp.mask = s.hp.mask := by
  unfold endStep
  split
  case h_1 =>
    split
    · exact endSubmit_mask _ s
    · rfl
  case h_2 => split_ifs <;> rfl
  case h_3 => split_ifs <;> rfl
  case h_4 => rfl
  case h_5 => rfl

/-- SEL high keeps the mask in every transaction state (R158, R170). -/
theorem endTransaction_mask (s : State) : (endTransaction s).hp.mask = s.hp.mask := by
  unfold endTransaction
  cases s.hp.transaction with
  | idle | command | parameters | dropped => rfl
  | decided => exact endStep_mask s

/-! ### What keeps the Host Port: the events of the line -/

/-- The events of the table that the line, the deframer and the time base bring. -/
inductive LineEvent : Instr → Prop
  | activeEvent (after : Nat) : LineEvent (.activeEvent after)
  | frameCandidate : LineEvent .frameCandidate
  | syncFound : LineEvent .syncFound
  | noSync (r : Reading) : LineEvent (.noSync r)
  | headerJudged (r : Reading) : LineEvent (.headerJudged r)
  | bodyCheckTaken (r : Reading) : LineEvent (.bodyCheckTaken r)
  | overrun (r : Reading) : LineEvent (.overrun r)
  | quietEvent (after : Nat) : LineEvent (.quietEvent after)
  | answerGapExpiry : LineEvent .answerGapExpiry
  | echoPass : LineEvent .echoPass
  | echoMismatch (after : Nat) : LineEvent (.echoMismatch after)
  | slotStart : LineEvent .slotStart
  | frameStart : LineEvent .frameStart
  | roundEnd : LineEvent .roundEnd
  | restDetectExpiry : LineEvent .restDetectExpiry
  | holdOffExpiry (peer : Nat) : LineEvent (.holdOffExpiry peer)
  | guardComplete : LineEvent .guardComplete
  | stuck : LineEvent .stuck
  | free (after : Nat) : LineEvent (.free after)
  | reading (r : Option Reading) : LineEvent (.reading r)

/-- A reading named by what it brings about leaves the Host Port, due or not. -/
theorem passReading_ite_hp (due : Prop) [Decidable due] (r : Reading) (s : State) :
    (if due then passReading r s else s).hp = s.hp := by
  split_ifs <;> simp

/-- An undriven bit time is held, or ends the burst: neither touches the Host Port (R6). -/
theorem undrivenReading_hp (s : State) : (undrivenReading s).hp = s.hp := by
  unfold undrivenReading
  split_ifs
  · rfl
  · simp
  · cases s.li.sensing <;> simp

/-- Every event of the line leaves the Host Port, due or not. -/
theorem exec_lineEvent_hp {i : Instr} (hline : LineEvent i) (s : State) : ∃ t, exec i s = .next t ∧ t.hp = s.hp := by
  cases hline with
  | activeEvent after => exact ⟨_, rfl, by cases s.li.sensing <;> simp⟩
  | frameCandidate => exact ⟨_, rfl, by split <;> [split_ifs; skip] <;> simp⟩
  | syncFound => exact ⟨_, rfl, passReading_ite_hp _ _ s⟩
  | noSync r => exact ⟨_, rfl, passReading_ite_hp _ r s⟩
  | headerJudged r => exact ⟨_, rfl, passReading_ite_hp _ r s⟩
  | bodyCheckTaken r => exact ⟨_, rfl, passReading_ite_hp _ r s⟩
  | overrun r => exact ⟨_, rfl, passReading_ite_hp _ r s⟩
  | quietEvent after => exact ⟨_, rfl, by cases s.li.sensing <;> [skip; skip; split_ifs; skip] <;> simp⟩
  | answerGapExpiry => exact ⟨_, rfl, by split <;> simp⟩
  | echoPass => exact ⟨_, rfl, by split <;> simp⟩
  | echoMismatch after => exact ⟨_, rfl, by split <;> simp⟩
  | slotStart => exact ⟨_, rfl, by split <;> [split_ifs; skip] <;> simp⟩
  | frameStart => exact ⟨_, rfl, by split <;> [split_ifs; skip] <;> simp⟩
  | roundEnd => exact ⟨_, rfl, by split_ifs <;> simp⟩
  | restDetectExpiry => exact ⟨_, rfl, by split_ifs <;> simp⟩
  | holdOffExpiry peer => exact ⟨_, rfl, by split <;> [split_ifs; skip; skip] <;> simp⟩
  | guardComplete => exact ⟨_, rfl, exec_guardComplete_hp rfl⟩
  | stuck => exact ⟨_, rfl, by cases s.li.sensing <;> [skip; skip; split_ifs; skip] <;> simp⟩
  | free after => exact ⟨_, rfl, by cases s.li.sensing <;> simp⟩
  | reading r =>
    refine ⟨_, rfl, ?_⟩
    split_ifs
    · cases r with
      | some r => simp
      | none => exact undrivenReading_hp s
    · rfl

/-- An event of the line keeps the mask. -/
theorem exec_lineEvent_mask {i : Instr} (hline : LineEvent i) (s : State) :
    ∃ t, exec i s = .next t ∧ t.hp.mask = s.hp.mask := by
  obtain ⟨t, ht, hhp⟩ := exec_lineEvent_hp hline s
  exact ⟨t, ht, by rw [hhp]⟩

/-- Every command and event but a hard reset, a MASK and a received byte keeps the mask, due or not (R170). -/
theorem exec_mask_kept {i : Instr} (hreset : i ≠ .hardReset) (hmask : ∀ b, i ≠ .mask b)
    (hbyte : ∀ b, i ≠ .byteReceived b) (s : State) : ∃ t, exec i s = .next t ∧ t.hp.mask = s.hp.mask := by
  cases i with
  | hardReset => exact absurd rfl hreset
  | mask b => exact absurd rfl (hmask b)
  | byteReceived b => exact absurd rfl (hbyte b)
  | hardResetEnd => exact ⟨_, rfl, rfl⟩
  | selLow => exact ⟨_, rfl, by split_ifs <;> simp [beginTransaction_mask]⟩
  | selHigh => exact ⟨_, rfl, endTransaction_mask s⟩
  | unknownCommand code => exact ⟨_, rfl, by split_ifs <;> rfl⟩
  | submitPayloadByte value => exact ⟨_, rfl, by split_ifs <;> rfl⟩
  | status => exact ⟨_, rfl, decideAtCommand_mask (c := .status) (by decide) s⟩
  | join => exact ⟨_, rfl, decideAtCommand_mask (c := .join) (by decide) s⟩
  | leave => exact ⟨_, rfl, decideAtCommand_mask (c := .leave) (by decide) s⟩
  | restart => exact ⟨_, rfl, decideAtCommand_mask (c := .restart) (by decide) s⟩
  | takeCompletion => exact ⟨_, rfl, decideAtCommand_mask (c := .takeCompletion) (by decide) s⟩
  | fetch => exact ⟨_, rfl, decideAtCommand_mask (c := .fetch) (by decide) s⟩
  | release => exact ⟨_, rfl, decideAtCommand_mask (c := .release) (by decide) s⟩
  | takeNotice => exact ⟨_, rfl, decideAtCommand_mask (c := .takeNotice) (by decide) s⟩
  | readOrder => exact ⟨_, rfl, decideAtCommand_mask (c := .readOrder) (by decide) s⟩
  | setup b => exact ⟨_, rfl, decideAtLast_mask (c := .setup) (by decide) b s⟩
  | submit b => exact ⟨_, rfl, decideAtLast_mask (c := .submit) (by decide) b s⟩
  | cancel b => exact ⟨_, rfl, decideAtLast_mask (c := .cancel) (by decide) b s⟩
  | gate b => exact ⟨_, rfl, decideAtLast_mask (c := .gate) (by decide) b s⟩
  | readPeer b => exact ⟨_, rfl, decideAtLast_mask (c := .readPeer) (by decide) b s⟩
  | _ => exact exec_lineEvent_mask (by constructor) s

/-- A hard reset enables every class, with a transaction in progress or without (R87, R153). -/
theorem hardResetState_mask (s : State) : (hardResetState s).hp.mask = AttentionMask.all := by
  simp only [hardResetState, initialValues]
  split_ifs <;> rfl

/-- Settles O24: MASK by its decision at the third byte, ATTN by its definition class by class, and the mask kept by the
case split of every other command and event, of which those of the line leave the whole Host Port. -/
theorem maskSetsAttention : Obligations.MaskSetsAttention := by
  refine ⟨fun c r n s htransaction hcommand hparameters => ?flags, attention_iff, fun s t h => ?hardReset,
    fun s htransaction => ?opens, fun n s htransaction hcommand hlength => ?third,
    fun m s => ⟨rfl, rfl, rfl, rfl⟩, fun i s t hreset hmask hbyte h => ?kept, fun b s t h hthird => ?byte⟩
  case flags =>
    have hlast : awaitsLast .mask s = true := awaitsLast_iff.mpr ⟨htransaction, hcommand, by rw [hparameters]; rfl⟩
    rw [exec_mask_of_awaitsLast hlast, decideMask_takeParameter hparameters]
  case hardReset =>
    obtain rfl : hardResetState s = t := Host.Outcome.next.inj h
    exact hardResetState_mask s
  case opens =>
    exact exec_byteReceived_opens_parameters (awaitsCommand_iff.mpr htransaction) (by decide) (by decide)
  case third =>
    have hlast : awaitsLast .mask s = true := awaitsLast_iff.mpr ⟨htransaction, hcommand, by rw [hlength]; rfl⟩
    rw [exec_byteReceived_of_awaitsLast hlast, exec_mask_of_awaitsLast hlast]
    rfl
  case kept =>
    obtain ⟨u, hu, hkept⟩ := exec_mask_kept hreset hmask hbyte s
    obtain rfl := Host.Outcome.next.inj (hu.symm.trans h)
    exact hkept
  case byte =>
    obtain rfl : receiveByte b s = t := Host.Outcome.next.inj h
    exact receiveByte_mask hthird b

end Sys2Proof.Machine
end

section
/-! The notice queue (chapter 11): which notices fold into the newest record, what adding a notice does in each case, and
when a record is under read. -/

namespace Sys2Proof.Machine

/-! ### The record under read (R177) -/

/-- The Host Port is past the decision point of a TAKE-NOTICE that replied OK, and SEL is not yet high (R177). -/
theorem underRead_iff {s : State} : underRead s = true ↔
    s.hp.transaction = .decided ∧ s.hp.command = some .takeNotice ∧ s.hp.stream.map (·.reply) = some .ok := by
  simp [underRead, and_assoc]

/-! ### Which notices fold (R175, R177) -/

/-- A notice folds into the newest record when it matches it, unless that record is the only one and under read. -/
theorem folds_append {reading : Bool} {n : Notice} {front : List NoticeRecord} {r : NoticeRecord} :
    folds reading n (front ++ [r]) = true ↔ r.notice = n ∧ ¬(reading = true ∧ front = []) := by
  simp [folds, imp_iff_not_or]

/-- A notice folds only into a record: the newest, which is the last of the queue. -/
theorem folds_iff {reading : Bool} {n : Notice} {q : List NoticeRecord} : folds reading n q = true ↔
    ∃ front r, q = front ++ [r] ∧ r.notice = n ∧ ¬(reading = true ∧ front = []) := by
  constructor
  · intro h
    obtain rfl | ⟨front, r, rfl⟩ := q.eq_nil_or_concat'
    · exact absurd h (by simp [folds])
    · exact ⟨front, r, rfl, folds_append.mp h⟩
  · rintro ⟨front, r, rfl, h⟩
    exact folds_append.mpr h

/-! ### The three cases of adding a notice (R175) -/

theorem addNotice_of_folds {reading : Bool} {n : Notice} {q : List NoticeRecord} (h : folds reading n q = true) :
    addNotice reading n q = updateNewest (fun r => { r with repeats := countUp r.repeats }) q := if_pos h

theorem addNotice_of_room {reading : Bool} {n : Notice} {q : List NoticeRecord} (h : ¬folds reading n q = true)
    (hroom : q.length < 16) : addNotice reading n q = q ++ [{ notice := n, repeats := 0, lostAfter := 0 }] := by
  rw [addNotice, if_neg h, if_pos hroom]

theorem addNotice_of_full {reading : Bool} {n : Notice} {q : List NoticeRecord} (h : ¬folds reading n q = true)
    (hfull : ¬q.length < 16) :
    addNotice reading n q = updateNewest (fun r => { r with lostAfter := countUp r.lostAfter }) q := by
  rw [addNotice, if_neg h, if_neg hfull]

/-! ### The counts of the records (R173) -/

theorem countUp_le (k : Nat) : countUp k ≤ 255 := Nat.min_le_left _ _

/-- What holds of every record, and is kept by a change, holds of every record after the newest is changed. -/
theorem forall_mem_updateNewest {p : NoticeRecord → Prop} {f : NoticeRecord → NoticeRecord} (hf : ∀ r, p r → p (f r))
    {q : List NoticeRecord} (h : ∀ r ∈ q, p r) : ∀ r ∈ updateNewest f q, p r := by
  obtain rfl | ⟨front, newest, rfl⟩ := q.eq_nil_or_concat'
  · exact h
  · rw [List.forall_mem_append, List.forall_mem_singleton] at h
    obtain ⟨hfront, hnewest⟩ := h
    rw [updateNewest_append, List.forall_mem_append, List.forall_mem_singleton]
    exact ⟨hfront, hf newest hnewest⟩

/-- In each case of R175 the one count that moves stays at 255, and a new record starts both at 0. -/
theorem addNotice_counts {reading : Bool} {n : Notice} {q : List NoticeRecord}
    (h : ∀ r ∈ q, r.repeats ≤ 255 ∧ r.lostAfter ≤ 255) :
    ∀ r ∈ addNotice reading n q, r.repeats ≤ 255 ∧ r.lostAfter ≤ 255 := by
  by_cases hfolds : folds reading n q = true
  · rw [addNotice_of_folds hfolds]
    exact forall_mem_updateNewest (fun r ⟨_, hlost⟩ => ⟨countUp_le _, hlost⟩) h
  by_cases hroom : q.length < 16
  · rw [addNotice_of_room hfolds hroom, List.forall_mem_append, List.forall_mem_singleton]
    exact ⟨h, Nat.zero_le _, Nat.zero_le _⟩
  · rw [addNotice_of_full hfolds hroom]
    exact forall_mem_updateNewest (fun r ⟨hrepeats, _⟩ => ⟨hrepeats, countUp_le _⟩) h

/-- Settles O53: the three cases of R175 by the equations of `addNotice`, each told apart by what folds into the newest
record. -/
theorem noticeFoldsAppendsOrCounts : Obligations.NoticeFoldsAppendsOrCounts := by
  refine ⟨fun s => underRead_iff, fun kind subject detail s => rfl, fun reading n q =>
    ⟨fun front r hq hmatch hread => ?folded, fun hother hroom => addNotice_of_room ?appended hroom,
      fun front r hq hother hfull => ?counted, addNotice_length, addNotice_counts⟩⟩
  case folded =>
    rw [hq, addNotice_of_folds (folds_append.mpr ⟨hmatch, hread⟩), updateNewest_append]
    rfl
  case appended =>
    intro hfolds
    obtain ⟨front, r, hq, hmatch, hread⟩ := folds_iff.mp hfolds
    exact (hother front r hq).elim (fun hne => hne hmatch) hread
  case counted =>
    have hfolds : ¬folds reading n q = true := by
      rw [hq, folds_append]
      exact fun ⟨hmatch, _⟩ => hother hmatch
    rw [addNotice_of_full hfolds hfull.not_lt, hq, updateNewest_append]
    rfl

end Sys2Proof.Machine
end

section
/-! What one step can do to the station, said once: every command of the table is one of the changes below, at the condition
under which it comes. The laws that every step keeps are proved along these changes. -/

namespace Sys2Proof.Machine

/-! ### The host's commands (R156) -/

/-- The state in which the owning block decides a command: its command byte, or its last parameter byte, has just been
received (R156). -/
inductive AtDecision (c : Command) (s : State) : State → Prop
  | atCommand (h : s.hp.transaction = .command) : AtDecision c s (takeCommand (some c) s)
  | atParameter (b : Byte) (h : s.hp.transaction = .parameters) (hcommand : s.hp.command = some c) :
      AtDecision c s (takeParameter b s)

/-- Receiving the byte has touched nothing but the Host Port, and no open SUBMIT (R156). -/
theorem AtDecision.keeps {c : Command} {s u : State} (h : AtDecision c s u) :
    u = { s with hp := u.hp } ∧ u.hp.submit = s.hp.submit ∧ u.hp.command = some c ∧
      u.hp.transaction = s.hp.transaction ∧ (s.hp.transaction = .command ∨ s.hp.transaction = .parameters) := by
  cases h with
  | atCommand h => exact ⟨rfl, rfl, rfl, rfl, .inl h⟩
  | atParameter b h hcommand => exact ⟨rfl, rfl, hcommand, rfl, .inr h⟩

/-- The other blocks at a decision are those before the byte. -/
theorem AtDecision.frame {c : Command} {s u : State} (h : AtDecision c s u) :
    u.li = s.li ∧ u.fu = s.fu ∧ u.ac = s.ac ∧ u.peers = s.peers ∧ u.te = s.te ∧ u.re = s.re ∧
      u.freeBlocks = s.freeBlocks ∧ u.notices = s.notices ∧ u.resetHeld = s.resetHeld := by
  cases h <;> exact ⟨rfl, rfl, rfl, rfl, rfl, rfl, rfl, rfl, rfl⟩

/-- What a decision does beside its reply. -/
inductive Decision : Command → State → State → Prop
  | reply {c : Command} (s : State) : Decision c s s
  | setup {s : State} (r : SetupRecord) (h : s.ac.station = .offline) :
      Decision .setup s (onAc (fun a => { a with setup := r, order := [] }) s)
  | join {s : State} (h : s.ac.station = .offline) : Decision .join s (joinLine s)
  | leave {s : State} (h : s.ac.station ≠ .offline) : Decision .leave s (leaveLine s)
  | submit {s : State} (o : OpenSubmit) (h : submitReply o s = .ok) : Decision .submit s (openRequest o s)
  | cancelWaiting {s : State} {tag : Tag} {e : TxEntry} (h : findEntry s tag = some e) (hw : e.state = .waiting) :
      Decision .cancel s (finishEntry tag .cancelled false s)
  | cancelInFlight {s : State} (tag : Tag) :
      Decision .cancel s (updateEntry tag (fun e => { e with cancelPending := true }) s)
  | gate {s : State} (a : Nat) (setting : Gate) : Decision .gate s (updatePeer a (fun e => { e with gate := setting }) s)
  | release {s : State} {r : RxRecord} {rest : List RxRecord} (h : s.re.ring = r :: rest) :
      Decision .release s (onFree (· + blocksFor r.length) (onRe (fun e => { e with ring := rest }) s))
  | mask {s : State} (m : AttentionMask) : Decision .mask s (onHp (fun h => { h with mask := m }) s)

/-- Every decision is one of these, with a reply (R156). -/
theorem decide_cases (c : Command) (s : State) : ∃ r data t, decide_ c s = respond r data t ∧ Decision c s t := by
  cases c with
  | status => exact ⟨_, _, _, rfl, .reply s⟩
  | restart => exact ⟨_, _, _, rfl, .reply s⟩
  | mask => exact ⟨_, _, _, rfl, .mask _⟩
  | setup =>
    simp only [decide_, decideSetup, bne_iff_ne, ne_eq]
    split_ifs with hstation
    · exact ⟨_, _, _, rfl, .reply s⟩
    · exact ⟨_, _, _, rfl, .setup _ hstation⟩
    · exact ⟨_, _, _, rfl, .reply s⟩
  | join =>
    simp only [decide_, decideJoin, bne_iff_ne, ne_eq]
    split_ifs with hstation
    · exact ⟨_, _, _, rfl, .reply s⟩
    · exact ⟨_, _, _, rfl, .join hstation⟩
    · exact ⟨_, _, _, rfl, .reply s⟩
  | leave =>
    simp only [decide_, decideLeave, beq_iff_eq]
    split_ifs with hstation
    · exact ⟨_, _, _, rfl, .reply s⟩
    · exact ⟨_, _, _, rfl, .leave hstation⟩
  | submit =>
    simp only [decide_, decideSubmit]
    split
    case h_1 hok => exact ⟨_, _, _, rfl, .submit _ hok⟩
    case h_2 => exact ⟨_, _, _, rfl, .reply s⟩
  | cancel =>
    simp only [decide_, decideCancel]
    split
    case h_1 => exact ⟨_, _, _, rfl, .reply s⟩
    case h_2 e hfound =>
      split
      case h_1 hwaiting => exact ⟨_, _, _, rfl, .cancelWaiting hfound hwaiting⟩
      case h_2 => exact ⟨_, _, _, rfl, .cancelInFlight _⟩
  | takeCompletion => simp only [decide_, decideTakeCompletion]; split <;> exact ⟨_, _, _, rfl, .reply s⟩
  | fetch => simp only [decide_, decideFetch]; split <;> exact ⟨_, _, _, rfl, .reply s⟩
  | takeNotice => simp only [decide_, decideTakeNotice]; split <;> exact ⟨_, _, _, rfl, .reply s⟩
  | readPeer => simp only [decide_, decideReadPeer]; split_ifs <;> exact ⟨_, _, _, rfl, .reply s⟩
  | readOrder => simp only [decide_, decideReadOrder]; split_ifs <;> exact ⟨_, _, _, rfl, .reply s⟩
  | release =>
    simp only [decide_, decideRelease]
    split
    case h_1 => exact ⟨_, _, _, rfl, .reply s⟩
    case h_2 hring => exact ⟨_, _, _, rfl, .release hring⟩
  | gate =>
    simp only [decide_, decideGate]
    split_ifs
    · exact ⟨_, _, _, rfl, .reply s⟩
    · exact ⟨_, _, _, rfl, .reply s⟩
    · exact ⟨_, _, _, rfl, .gate _ _⟩

/-! ### The changes -/

/-- What the host's side does: a byte received, an edge of SEL, a reset. -/
inductive HostChange (s : State) : State → Prop
  | decided {c : Command} {u t : State} (r : Reply) (data : List Byte) (hu : AtDecision c s u) (ht : Decision c u t) :
      HostChange s (respond r data t)
  | unknown (h : s.hp.transaction = .command) : HostChange s (respond .unknownCommand [] (takeCommand none s))
  | opened (c : Command) (h : s.hp.transaction = .command) :
      HostChange s (onHp (fun hp => { hp with transaction := .parameters }) (takeCommand (some c) s))
  | parameter (b : Byte) (h : s.hp.transaction = .parameters) : HostChange s (takeParameter b s)
  | clocked (h : s.hp.transaction = .decided) : HostChange s (clockStream s)
  | payload (b : Byte) (h : s.hp.transaction = .decided) : HostChange s (takePayload b (clockStream s))
  | ignored (h : s.hp.transaction = .dropped) : HostChange s (onHp (fun hp => { hp with sdo := some 0 }) s)
  | selLow (h : s.hp.transaction = .idle) : HostChange s (beginTransaction s)
  | closed (h : s.hp.transaction = .decided → s.hp.command = some .submit → s.hp.submit = none) :
      HostChange s (closeTransaction s)
  | submitted {o : OpenSubmit} (h : s.hp.transaction = .decided) (ho : s.hp.submit = some o) :
      HostChange s (closeTransaction (endSubmit o s))
  | completionTaken (h : s.hp.command = some .takeCompletion) :
      HostChange s (closeTransaction (onTe (fun t => { t with completions := t.completions.drop 1 }) s))
  | noticeTaken (h : s.hp.command = some .takeNotice) : HostChange s (closeTransaction (onNotices (·.drop 1) s))
  | restarted : HostChange s (closeTransaction (stationReset s))
  | hardReset : HostChange s (hardResetState s)
  | hardResetEnd : HostChange s { s with resetHeld := false }

/-- What the line, the deframer and the time base do. -/
inductive LineChange (s : State) : State → Prop
  | time (n : Nat) : LineChange s (passTime n s)
  | level (x : Bool) (h : s.li.sensing = .off) : LineChange s (onLi (fun l => { l with lineDriven := x }) s)
  | active (n : Nat) (h : s.li.sensing = .quiet) : LineChange s (activeEvent (passTime n s))
  | candidate {b : Burst} (h : s.li.sensing = .active) (hb : s.li.burst = some b) (hpartial : b.isPartial = false)
      (hnew : b.candidate = false) : LineChange s (candidateStep b s)
  | reading (r : Reading) (h : passesReadings s = true) : LineChange s (passReading r s)
  | held (h : passesReadings s = true) : LineChange s (setHeld true s)
  | quiet {u : State} (hu : u = s ∨ ∃ n, u = passTime n s) (h : s.li.sensing = .active) (hx : s.li.tx = none) :
      LineChange s (quietEvent u)
  | free {u : State} (hu : u = s ∨ ∃ n, u = passTime n s) (h : s.li.sensing = .stuck) : LineChange s (declareFree u)
  | answer {a : Answer} {due : Nat} (h : s.fu.framer = .answerDue a due) : LineChange s (sendAnswer a (runTo due s))
  | echoPass {x : Transmission} (h : s.li.tx = some x) : LineChange s (echoPass x s)
  | echoMismatch {x : Transmission} (n : Nat) (h : s.li.tx = some x) : LineChange s (echoMismatch x (passTime n s))
  | slotStart (k : Nat) (hround : s.ac.tracker.phase = .round) (h : s.li.sensing = .quiet)
      (hopen : claimOpen s = false) : LineChange s (slotStart k s)
  | frameStart {c : OwnClaim} (h : s.ac.tracker.access.claim = some c) (hheld : c.progress = .held) :
      LineChange s (frameStart c s)
  | roundEnd (h : s.li.sensing = .quiet) (hopen : claimOpen s = false) : LineChange s (endRound s)
  | restDetected (hstation : s.ac.station = .listening) (h : s.li.sensing = .quiet) : LineChange s (concludeRest s)
  | holdOffExpired {a expiry : Nat} (h : s.li.sensing ≠ .off)
      (hp : (peerEntry s a).holdOff = some (.running expiry)) : LineChange s (expireHoldOff a expiry s)
  | guardComplete (n : Nat) (h : s.li.sensing = .quiet) (hx : s.li.tx = none) (hsettled : claimUnsettled s = false) :
      LineChange s (completeGuard n s)
  | stuck (h : s.li.sensing = .active) (hx : s.li.tx = none) (hsettled : claimUnsettled s = false) :
      LineChange s (declareStuck s)

/-- One command, at a moment at which it comes or not. -/
inductive Change (s : State) : State → Prop
  | nothing : Change s s
  | host {t : State} (h : HostChange s t) : Change s t
  | line {t : State} (h : LineChange s t) : Change s t

/-- A command that changes nothing where its condition does not hold (log 3). -/
theorem Change.ite {s t : State} {p : Prop} [Decidable p] (h : p → Change s t) : Change s (if p then t else s) := by
  split_ifs with hp
  · exact h hp
  · exact .nothing

theorem driving_eq_false_iff {s : State} : driving s = false ↔ s.li.tx = none := by
  simp [driving]

/-! ### Every command is one of them: the host's -/

/-- A decision is one of the changes of the host's side (R156). -/
theorem change_decide {c : Command} {s u : State} (hu : AtDecision c s u) : Change s (decide_ c u) := by
  obtain ⟨r, data, t, ht, hdecision⟩ := decide_cases c u
  rw [ht]
  exact .host (.decided r data hu hdecision)

theorem change_decideAtCommand (c : Command) (s : State) :
    Change s (if awaitsCommand s then decide_ c (takeCommand (some c) s) else s) :=
  .ite fun h => change_decide (.atCommand (awaitsCommand_iff.mp h))

theorem change_decideAtLast (c : Command) (b : Byte) (s : State) :
    Change s (if awaitsLast c s then decide_ c (takeParameter b s) else s) :=
  .ite fun h => change_decide (.atParameter b (awaitsLast_iff.mp h).1 (awaitsLast_iff.mp h).2.1)

theorem awaitsPayload_decided {s : State} (h : awaitsPayload s = true) : s.hp.transaction = .decided := by
  simp only [awaitsPayload, Bool.and_eq_true, beq_iff_eq] at h
  exact h.1

/-- A received byte, by transaction state (R154 to R159, R164). -/
theorem change_receiveByte (b : Byte) (s : State) : Change s (receiveByte b s) := by
  unfold receiveByte
  cases htransaction : s.hp.transaction with
  | idle => exact .nothing
  | command =>
    simp only [receiveCommand]
    split
    case h_1 => exact .host (.unknown htransaction)
    case h_2 c _ =>
      split_ifs
      · exact change_decide (.atCommand htransaction)
      · exact .host (.opened c htransaction)
  | parameters =>
    simp only [receiveParameter]
    split
    case h_1 c hcommand =>
      split_ifs
      · exact change_decide (.atParameter b htransaction hcommand)
      · exact .host (.parameter b htransaction)
    case h_2 => exact .host (.parameter b htransaction)
  | decided =>
    simp only [receiveDecided]
    split_ifs
    · exact .host (.payload b htransaction)
    · exact .host (.clocked htransaction)
  | dropped => exact .host (.ignored htransaction)

/-- SEL high, by transaction state and command (R158). -/
theorem change_endTransaction (s : State) : Change s (endTransaction s) := by
  unfold endTransaction
  cases htransaction : s.hp.transaction with
  | idle => exact .nothing
  | command => exact .host (.closed (by simp [htransaction]))
  | parameters => exact .host (.closed (by simp [htransaction]))
  | dropped => exact .host (.closed (by simp [htransaction]))
  | decided =>
    simp only [endStep]
    split
    case h_1 =>
      split
      case h_1 o ho => exact .host (.submitted htransaction ho)
      case h_2 ho => exact .host (.closed fun _ _ => ho)
    case h_2 hcommand =>
      split_ifs
      · exact .host (.completionTaken hcommand)
      · exact .host (.closed (by simp [hcommand]))
    case h_3 hcommand =>
      split_ifs
      · exact .host (.noticeTaken hcommand)
      · exact .host (.closed (by simp [hcommand]))
    case h_4 => exact .host .restarted
    case h_5 hsubmit _ _ _ => exact .host (.closed fun _ h => absurd h hsubmit)

/-! ### Every command is one of them: the line's -/

/-- An undriven bit time of a candidate is held, or ends the burst (R6). -/
theorem change_undrivenReading {s : State} (h : passesReadings s = true) : Change s (undrivenReading s) := by
  unfold undrivenReading
  split_ifs with hdriving
  · exact .nothing
  · exact .line (.held h)
  · have hx : s.li.tx = none := driving_eq_false_iff.mp (by simpa using hdriving)
    cases hsensing : s.li.sensing with
    | off => exact .nothing
    | quiet => exact .nothing
    | active => exact .line (.quiet (.inl rfl) hsensing hx)
    | stuck => exact .line (.free (.inl rfl) hsensing)

/-- A reading named by what it brings about is a reading (log 2). -/
theorem change_bringsEvent (due : Reading → State → Bool) (r : Reading) (s : State) :
    Change s (if bringsEvent due r s then passReading r s else s) :=
  .ite fun h => .line (.reading r (by simp only [bringsEvent, Bool.and_eq_true] at h; exact h.1))

/-- GUARD_COMPLETE (R36, R56). -/
theorem change_guardComplete {s t : State} (h : exec .guardComplete s = .next t) : Change s t := by
  obtain rfl | ⟨n, -, hquiet, -, hdriving, hsettled, rfl⟩ := exec_guardComplete_cases h
  · exact .nothing
  · exact .line (.guardComplete n hquiet (driving_eq_false_iff.mp hdriving) hsettled)

/-- Every event of the line is one of the changes of the line. -/
theorem change_of_lineEvent {i : Instr} (hline : LineEvent i) (s : State) : ∃ t, exec i s = .next t ∧ Change s t := by
  cases hline with
  | activeEvent n =>
    refine ⟨_, rfl, ?_⟩
    split
    case h_1 h => exact .line (.active n h)
    case h_2 h => exact .line (.level true h)
    case h_3 => exact .nothing
    case h_4 => exact .nothing
  | frameCandidate =>
    refine ⟨_, rfl, ?_⟩
    split
    case h_1 b h hb =>
      split_ifs with hold
      · exact .nothing
      · simp only [Bool.or_eq_true, not_or, Bool.not_eq_true] at hold
        exact .line (.candidate h hb hold.1 hold.2)
    case h_2 => exact .nothing
  | syncFound => exact ⟨_, rfl, change_bringsEvent _ _ s⟩
  | noSync r => exact ⟨_, rfl, change_bringsEvent _ r s⟩
  | headerJudged r => exact ⟨_, rfl, change_bringsEvent _ r s⟩
  | bodyCheckTaken r => exact ⟨_, rfl, change_bringsEvent _ r s⟩
  | overrun r => exact ⟨_, rfl, change_bringsEvent _ r s⟩
  | quietEvent n =>
    refine ⟨_, rfl, ?_⟩
    split
    case h_1 h =>
      split_ifs with hdriving
      · exact .nothing
      · exact .line (.quiet (.inr ⟨n, rfl⟩) h (driving_eq_false_iff.mp (by simpa using hdriving)))
    case h_2 h => exact .line (.level false h)
    case h_3 => exact .nothing
    case h_4 => exact .nothing
  | answerGapExpiry =>
    refine ⟨_, rfl, ?_⟩
    split
    case h_1 h => exact .line (.answer h)
    all_goals exact .nothing
  | echoPass =>
    refine ⟨_, rfl, ?_⟩
    split
    case h_1 h => exact .line (.echoPass h)
    case h_2 => exact .nothing
  | echoMismatch n =>
    refine ⟨_, rfl, ?_⟩
    split
    case h_1 h => exact .line (.echoMismatch n h)
    case h_2 => exact .nothing
  | slotStart =>
    refine ⟨_, rfl, ?_⟩
    split
    case h_1 k _ =>
      refine .ite fun h => ?_
      simp only [Bool.and_eq_true, beq_iff_eq, Bool.not_eq_true'] at h
      obtain ⟨⟨⟨⟨hround, hquiet⟩, -⟩, hopen⟩, -⟩ := h
      exact .line (.slotStart k hround hquiet hopen)
    case h_2 => exact .nothing
  | frameStart =>
    refine ⟨_, rfl, ?_⟩
    split
    case h_1 h => exact .ite fun hheld => .line (.frameStart h (by simpa using hheld))
    case h_2 => exact .nothing
  | roundEnd =>
    refine ⟨_, rfl, .ite fun h => ?_⟩
    simp only [Bool.and_eq_true, beq_iff_eq, Bool.not_eq_true'] at h
    obtain ⟨⟨-, hquiet⟩, hopen⟩ := h
    exact .line (.roundEnd hquiet hopen)
  | restDetectExpiry =>
    refine ⟨_, rfl, .ite fun h => ?_⟩
    simp only [Bool.and_eq_true, beq_iff_eq, Bool.not_eq_true'] at h
    obtain ⟨⟨⟨hstation, -⟩, -⟩, hquiet⟩ := h
    exact .line (.restDetected hstation hquiet)
  | holdOffExpiry a =>
    refine ⟨_, rfl, ?_⟩
    split
    case h_1 hp =>
      split_ifs with hoff
      · exact .nothing
      · exact .line (.holdOffExpired (by simpa using hoff) hp)
    all_goals exact .nothing
  | guardComplete => exact ⟨_, rfl, change_guardComplete rfl⟩
  | stuck =>
    refine ⟨_, rfl, ?_⟩
    split
    case h_1 h =>
      split_ifs with hcannot
      · exact .nothing
      · simp only [Bool.or_eq_true, not_or, Bool.not_eq_true] at hcannot
        exact .line (.stuck h (driving_eq_false_iff.mp hcannot.1) hcannot.2)
    all_goals exact .nothing
  | free n =>
    refine ⟨_, rfl, ?_⟩
    split
    case h_1 h => exact .line (.free (.inr ⟨n, rfl⟩) h)
    all_goals exact .nothing
  | reading r =>
    refine ⟨_, rfl, .ite fun h => ?_⟩
    cases r with
    | some r => exact .line (.reading r h)
    | none => exact change_undrivenReading h

/-! ### Every step is one of them -/

/-- Every command is one of the changes. -/
theorem change_of_exec (i : Instr) (s : State) : ∃ t, exec i s = .next t ∧ Change s t := by
  cases i with
  | hardReset => exact ⟨_, rfl, .host .hardReset⟩
  | hardResetEnd => exact ⟨_, rfl, .host .hardResetEnd⟩
  | selLow => exact ⟨_, rfl, .ite fun h => .host (.selLow (by simpa using h))⟩
  | selHigh => exact ⟨_, rfl, change_endTransaction s⟩
  | byteReceived b => exact ⟨_, rfl, change_receiveByte b s⟩
  | unknownCommand code =>
    refine ⟨_, rfl, .ite fun h => ?_⟩
    simp only [Bool.and_eq_true] at h
    exact .host (.unknown (awaitsCommand_iff.mp h.1))
  | submitPayloadByte b => exact ⟨_, rfl, .ite fun h => .host (.payload b (awaitsPayload_decided h))⟩
  | status => exact ⟨_, rfl, change_decideAtCommand .status s⟩
  | join => exact ⟨_, rfl, change_decideAtCommand .join s⟩
  | leave => exact ⟨_, rfl, change_decideAtCommand .leave s⟩
  | restart => exact ⟨_, rfl, change_decideAtCommand .restart s⟩
  | takeCompletion => exact ⟨_, rfl, change_decideAtCommand .takeCompletion s⟩
  | fetch => exact ⟨_, rfl, change_decideAtCommand .fetch s⟩
  | release => exact ⟨_, rfl, change_decideAtCommand .release s⟩
  | takeNotice => exact ⟨_, rfl, change_decideAtCommand .takeNotice s⟩
  | readOrder => exact ⟨_, rfl, change_decideAtCommand .readOrder s⟩
  | setup b => exact ⟨_, rfl, change_decideAtLast .setup b s⟩
  | submit b => exact ⟨_, rfl, change_decideAtLast .submit b s⟩
  | cancel b => exact ⟨_, rfl, change_decideAtLast .cancel b s⟩
  | gate b => exact ⟨_, rfl, change_decideAtLast .gate b s⟩
  | readPeer b => exact ⟨_, rfl, change_decideAtLast .readPeer b s⟩
  | mask b => exact ⟨_, rfl, change_decideAtLast .mask b s⟩
  | _ => exact change_of_lineEvent (by constructor) s

/-- A step is one of the changes, from the state with the rest of the commands (R1; logs 4, 15). -/
theorem change_of_step {s t : State} (h : step s = .next t) : ∃ rest, Change { s with pending := rest } t := by
  cases hp : s.pending with
  | nil =>
    simp only [step, hp, Host.Outcome.next.injEq] at h
    exact ⟨s.pending, h ▸ .line (.time 1)⟩
  | cons c rest =>
    simp only [step, hp] at h
    obtain ⟨u, hu, hchange⟩ := change_of_exec c { s with pending := rest }
    obtain rfl := Host.Outcome.next.inj (hu.symm.trans h)
    exact ⟨rest, hchange⟩

end Sys2Proof.Machine
end

section
/-! The Access Controller while it only watches the line, and the order list over every step (chapter 04). -/

namespace Sys2Proof.Machine

/-! ### The AC outside its round tracker -/

theorem OrderKept.of_eq {s t : State} (h : t.ac = s.ac) : OrderKept s t := by
  rw [OrderKept, h]

theorem OrderKept.trans {s t u : State} (h : OrderKept s t) (h' : OrderKept t u) : OrderKept s u := by
  simp only [orderKept_iff] at *
  obtain ⟨h1, h2, h3, h4, h5⟩ := h
  simpa [h1, h2, h3, h4, h5] using h'

/-- The AC only watches: it keeps its state, the list and the own claim, and the unclaimed count does not go up. -/
structure AcWatches (s t : State) : Prop where
  order : OrderKept s t
  claim : t.ac.tracker.access.claim = s.ac.tracker.access.claim
  unclaimed : t.ac.tracker.unclaimed ≤ s.ac.tracker.unclaimed

namespace AcWatches

theorem of_eq {s t : State} (h : t.ac = s.ac) : AcWatches s t :=
  ⟨.of_eq h, by rw [h], by rw [h]⟩

theorem trans {s t u : State} (h : AcWatches s t) (h' : AcWatches t u) : AcWatches s u :=
  ⟨h.order.trans h'.order, h'.claim.trans h.claim, h'.unclaimed.trans h.unclaimed⟩

/-- The AC only watches when it does from some state with the same AC on. -/
theorem of_ac {s q t : State} (h : AcWatches q t) (hac : q.ac = s.ac) : AcWatches s t :=
  (of_eq hac).trans h

end AcWatches

theorem passTime_watches (n : Nat) (s : State) : AcWatches s (passTime n s) :=
  ⟨by simp [orderKept_iff], by simp, by simp⟩

theorem activeAtAc_watches (s : State) : AcWatches s (activeAtAc s) :=
  ⟨by simp [activeAtAc, orderKept_iff], by simp [activeAtAc], by simp [activeAtAc]⟩

theorem activeEvent_watches (s : State) : AcWatches s (activeEvent s) :=
  (activeAtAc_watches (beginBurst s)).of_ac (by simp)

theorem candidateStep_watches (b : Burst) (s : State) : AcWatches s (candidateStep b s) := by
  refine ⟨?_, ?_, ?_⟩
  · simp [candidateStep, burstTo, orderKept_iff]
  · simp only [candidateStep, onAccess_ac, AccessRecord.meetCandidate]
    split <;> simp [burstTo]
  · simp [candidateStep, burstTo]

/-! ### The reports of the FU -/

/-- The FU tells the AC of nothing but its frame report (R43). -/
def AcReported (s t : State) : Prop :=
  t.ac = { s.ac with tracker := { s.ac.tracker with access := { s.ac.tracker.access with
    report := t.ac.tracker.access.report } } }

theorem AcReported.of_eq {s t : State} (h : t.ac = s.ac) : AcReported s t := by
  rw [AcReported, h]

theorem AcReported.trans {s t u : State} (h : AcReported s t) (h' : AcReported t u) : AcReported s u := by
  unfold AcReported at *
  rw [h', h]

theorem AcReported.watches {s t : State} (h : AcReported s t) : AcWatches s t := by
  rw [AcReported] at h
  exact ⟨by rw [OrderKept, h], by rw [h], by rw [h]⟩

theorem reportFrame_reported (r : FrameReport) (s : State) : AcReported s (reportFrame r s) := by
  simp [AcReported]

theorem headerError_reported (s : State) : AcReported s (headerError s) := by
  simp [AcReported, headerError]

theorem takeHunt_reported (r : Reading) (s : State) : AcReported s (takeHunt r s) := by
  simp only [takeHunt]
  split_ifs <;> simp [AcReported]

theorem headerValid_reported (h : Header) (s : State) : AcReported s (headerValid h s) := by
  simp only [headerValid]
  split_ifs <;> simp [AcReported]

theorem takeHeaderByte_reported (b : Byte) (s : State) : AcReported s (takeHeaderByte b s) := by
  simp only [takeHeaderByte]
  split_ifs
  · split
    · exact (AcReported.of_eq (by simp)).trans (headerValid_reported _ _)
    · exact (AcReported.of_eq (by simp)).trans (headerError_reported _)
  · exact .of_eq (by simp)

theorem takeHeader_reported (r : Reading) (s : State) : AcReported s (takeHeader r s) := by
  have hbit (b : Bool) : AcReported s (takeHeaderBit b s) := by
    simp only [takeHeaderBit]
    split_ifs
    · exact takeHeaderByte_reported _ s
    · exact .of_eq (by simp)
  cases r with
  | one => exact hbit true
  | zero => exact hbit false
  | bad => exact headerError_reported s

theorem takeOverrun_reported (s : State) : AcReported s (takeOverrun s) := by
  simp only [takeOverrun]
  split_ifs <;> split <;> simp [AcReported]

theorem takeReading_reported (r : Reading) (s : State) : AcReported s (takeReading r s) := by
  unfold takeReading
  split
  case h_2 => exact takeHunt_reported r s
  case h_3 => exact takeHeader_reported r s
  case h_5 =>
    unfold takeTail
    split_ifs
    · exact takeOverrun_reported s
    · exact .of_eq (by simp)
  all_goals exact .of_eq (by simp)

theorem frameEnd_reported (h : Header) (s : State) : AcReported s (frameEnd h s) := by
  simp only [frameEnd]
  split_ifs <;> simp [AcReported]

theorem truncatedEnd_reported (s : State) : AcReported s (truncatedEnd s) := by
  simp only [truncatedEnd]
  split <;> simp [AcReported]

/-- A candidate ends with no report, truncated, or at its frame end, and the deframer is in QUIET (R24 to R28). -/
theorem candidateEnd_cases (s : State) : candidateEnd s = quietDeframer s ∨
    candidateEnd s = quietDeframer (truncatedEnd s) ∨ ∃ h, candidateEnd s = quietDeframer (frameEnd h s) := by
  unfold candidateEnd
  split
  case h_1 => exact .inl rfl
  case h_2 => exact .inr (.inl rfl)
  case h_3 => exact .inr (.inl rfl)
  case h_4 => exact .inr (.inl rfl)
  case h_5 =>
    split_ifs
    · exact .inr (.inl rfl)
    · split
      case h_1 h _ => exact .inr (.inr ⟨h, rfl⟩)
      case h_2 => exact .inl rfl
  case h_6 => exact .inl rfl

theorem candidateEnd_reported (s : State) : AcReported s (candidateEnd s) := by
  obtain h | h | ⟨f, h⟩ := candidateEnd_cases s <;> rw [h]
  · exact .of_eq (by simp)
  · exact (truncatedEnd_reported s).trans (.of_eq (by simp))
  · exact (frameEnd_reported f s).trans (.of_eq (by simp))

/-! ### Readings and the ends of bursts at the AC -/

theorem readingStep_watches (r : Reading) (s : State) : AcWatches s (readingStep r s) := by
  have hhand : AcWatches s (handReading s) := (passTime_watches _ _).of_ac (by simp)
  exact hhand.trans (takeReading_reported r _).watches

theorem passReading_watches (r : Reading) (s : State) : AcWatches s (passReading r s) := by
  have hheld : AcWatches s (passHeld s) := by
    unfold passHeld
    split_ifs
    · exact (readingStep_watches _ _).of_ac (by simp)
    · exact .of_eq rfl
  exact hheld.trans (readingStep_watches r _)

theorem burstEndAtAc_watches (b : Burst) (s : State) : AcWatches s (burstEndAtAc b s) :=
  ⟨by simp [burstEndAtAc, orderKept_iff], by simp [burstEndAtAc], by simp [burstEndAtAc]⟩

theorem burstEnd_watches (b : Burst) (s : State) : AcWatches s (burstEnd b s) := by
  have hcandidate : AcWatches s (if b.candidate && !b.isPartial then candidateEnd (quietAtLi b s) else quietAtLi b s) := by
    split_ifs
    · exact (candidateEnd_reported _).watches.of_ac (by simp)
    · exact .of_eq (by simp)
  exact (hcandidate.trans (.of_eq (by simp))).trans (burstEndAtAc_watches b (windowAtBurstEnd b (windowAnswer s) _))

theorem quietEvent_watches (s : State) : AcWatches s (quietEvent s) := by
  unfold quietEvent
  split
  · exact burstEnd_watches _ s
  · exact .of_eq rfl

theorem declareFree_watches (s : State) : AcWatches s (declareFree s) :=
  (quietEvent_watches _).of_ac (by simp)

/-! ### The operations that act for the AC -/

theorem abortAttempt_orderKept (tag : Tag) (s : State) : OrderKept s (abortAttempt tag s) := .of_eq (by simp)

/-- A claim is withdrawn: the AC keeps all but its progress (R41). -/
theorem withdrawClaim_orderKept (s : State) : OrderKept s (withdrawClaim s) := by
  simp only [withdrawClaim]
  split
  · exact .of_eq rfl
  · split <;> simp [OrderKept]

theorem markPartial_ac (s : State) : (markPartial s).ac = { s.ac with tracker := { s.ac.tracker with
    access := if s.ac.tracker.access.following
      then { s.ac.tracker.access with report := .absent, candidateSeen := false, following := false }
      else s.ac.tracker.access } } := rfl

theorem markPartial_watches (s : State) : AcWatches s (markPartial s) := by
  refine ⟨by simp [OrderKept, markPartial_ac], ?_, by simp [markPartial_ac]⟩
  simp only [markPartial_ac]
  split_ifs <;> rfl

theorem claimSlot_orderKept (k : Nat) (content : ClaimContent) (s : State) : OrderKept s (claimSlot k content s) := by
  simp only [claimSlot]
  split_ifs
  · exact OrderKept.trans (by simp [OrderKept]) (withdrawClaim_orderKept _)
  · simp [OrderKept]

theorem slotStart_orderKept (k : Nat) (s : State) : OrderKept s (slotStart k s) := by
  have hstart : OrderKept s (onTracker (fun t => { t with slotTaken := true }) (runTo (slotStartTime s k) s)) := by
    simp [orderKept_iff, runTo]
  simp only [slotStart]
  split
  · exact hstart.trans (claimSlot_orderKept k _ _)
  · exact hstart

theorem endRound_orderKept (s : State) : OrderKept s (endRound s) := by
  simp only [endRound]
  split_ifs
  · simp [orderKept_iff, runTo]
  · exact OrderKept.trans (by simp [orderKept_iff, runTo]) (wakeIfNeeded_spec _).1

theorem expireHoldOff_orderKept (a expiry : Nat) (s : State) : OrderKept s (expireHoldOff a expiry s) :=
  OrderKept.trans (by simp [orderKept_iff, runTo]) (wakeIfNeeded_spec _).1

end Sys2Proof.Machine
end

section
/-! The order list over every step (chapter 04): each change keeps the list, rotates or resets it, or takes the setup record
with it. -/

namespace Sys2Proof.Machine

/-! ### The list and the setup record -/

/-- The list and the setup record, of which it is formed, are kept. -/
structure ListKept (s t : State) : Prop where
  order : t.ac.order = s.ac.order
  setup : t.ac.setup = s.ac.setup

namespace ListKept

theorem of_eq {s t : State} (h : t.ac = s.ac) : ListKept s t := ⟨by rw [h], by rw [h]⟩

theorem trans {s t u : State} (h : ListKept s t) (h' : ListKept t u) : ListKept s u :=
  ⟨h'.order.trans h.order, h'.setup.trans h.setup⟩

end ListKept

theorem OrderKept.list {s t : State} (h : OrderKept s t) : ListKept s t := by
  obtain ⟨-, hsetup, horder, -, -⟩ := (orderKept_iff s t).mp h
  exact ⟨horder, hsetup⟩

theorem OrderFormed.of_kept {s t : State} (h : OrderFormed s) (hk : ListKept s t) : OrderFormed t := by
  simpa [OrderFormed, roster, hk.order, hk.setup] using h

/-- A collision of an own frame keeps the list and the setup record (R59, R73). -/
theorem frameMismatch_list (s : State) : ListKept s (frameMismatch s) := by
  simp only [frameMismatch]
  repeat' split
  all_goals exact ⟨by simp, by simp⟩

theorem echoMismatch_list (x : Transmission) (s : State) : ListKept s (echoMismatch x s) := by
  have hmarked : ListKept s (markPartial (releaseDriver s)) := ⟨by simp [markPartial_ac], by simp [markPartial_ac]⟩
  unfold echoMismatch mismatchAtOwner
  split
  case h_1 =>
    split_ifs
    · exact hmarked.trans (withdrawClaim_orderKept _).list
    · exact hmarked
  case h_2 => exact (hmarked.trans (.of_eq (by simp))).trans (frameMismatch_list (setFramer .idle _))
  case h_3 => exact hmarked.trans (.of_eq (by simp))

theorem sendFrame_list (r : FrameRequest) (s : State) : ListKept s (sendFrame r s) := by
  have hsent : ListKept s (setProgress .sent s) := ⟨by simp, by simp⟩
  simp only [sendFrame]
  split_ifs
  · exact hsent.trans (.of_eq (by simp))
  · exact hsent.trans (frameMismatch_list _)

theorem frameStart_list (c : OwnClaim) (s : State) : ListKept s (frameStart c s) := by
  have hrun : ListKept s (runTo (c.markedAt + s.ac.setup.slot) s) := (passTime_watches _ s).order.list
  simp only [frameStart]
  split
  · exact hrun.trans (sendFrame_list _ _)
  · exact hrun

theorem echoPass_list (x : Transmission) (s : State) : ListKept s (echoPass x s) := by
  have hfinish : ListKept s (finishTransmission x s) := by
    simp only [finishTransmission]
    split <;> exact ⟨by simp [burstTo], by simp [burstTo]⟩
  have hframe (r : FrameRequest) (u : State) : ListKept u (framePassed r u) := by
    simp only [framePassed]
    repeat' split
    all_goals exact ⟨by simp, by simp⟩
  have hmark (u : State) : ListKept u (markPassed u) := by
    unfold markPassed
    split_ifs <;> exact ⟨by simp, by simp⟩
  simp only [echoPass]
  split
  · exact hfinish.trans (hmark _)
  · split
    · exact hfinish.trans (hframe _ _)
    · exact hfinish
  · exact hfinish.trans (.of_eq (by simp))

theorem stationAtStuck_list (s : State) : ListKept s (stationAtStuck s) := by
  unfold stationAtStuck
  split <;> exact ⟨by simp, by simp⟩

theorem declareStuck_list (s : State) : ListKept s (declareStuck s) :=
  ListKept.trans ⟨by simp, by simp⟩ (stationAtStuck_list (onAccess (fun _ => AccessRecord.empty) (stuckNotices
    (onLi (fun l => { l with sensing := .stuck }) (passTime (stuckLimit - s.li.stuckTimer) s)))))

/-! ### What an access end does at the AC -/

/-- What the AC does with an access at its end, in whatever station state (R56 to R71). -/
inductive AccessTaken (s : State) : State → Prop
  | kept : AccessTaken s s
  | halted : AccessTaken s (halt s)
  | left (h : s.ac.station = .leaving) : AccessTaken s (enterOffline s)
  | resync : AccessTaken s (setStation .resync s)
  | rotated (a : Nat) : AccessTaken s (rotateOrder a s)
  | reset (a : Nat) : AccessTaken s (resetOrder a s)
  | repaired (a : Nat) : AccessTaken s (setStation .online (resetOrder a s))
  | diverged (subject : Option Nat) : AccessTaken s (diverged subject s)
  | applied (h : FrameHeader) (body : OrderResetBody) : AccessTaken s (applyOrderReset h body s)
  | otherRoster (subject : Option Nat) : AccessTaken s (raise .rosterMismatch subject none s)
  | otherRosterResync (subject : Option Nat) :
      AccessTaken s (setStation .resync (raise .rosterMismatch subject none s))

namespace AccessTaken

theorem takeOrderReset_id (h : FrameHeader) (body : OrderResetBody) (s : State) :
    AccessTaken s (takeOrderReset h body id s) := by
  unfold takeOrderReset
  split_ifs
  · exact .applied h body
  · exact .otherRoster _

theorem takeOrderReset_resync (h : FrameHeader) (body : OrderResetBody) (s : State) :
    AccessTaken s (takeOrderReset h body (setStation .resync) s) := by
  unfold takeOrderReset
  split_ifs
  · exact .applied h body
  · exact .otherRosterResync _

theorem verifyHeader (h : FrameHeader) (s : State) : AccessTaken s (verifyHeader h s) := by
  simp only [Machine.verifyHeader]
  split_ifs
  · exact .diverged _
  · exact .rotated _
  · exact .diverged _

theorem rotateByMark (s : State) : AccessTaken s (rotateByMark s) := by
  unfold Machine.rotateByMark
  split
  · exact .rotated _
  · exact .diverged _

theorem placeAnswer (h : AnswerHeader) (s : State) : AccessTaken s (placeAnswer h s) := by
  unfold Machine.placeAnswer
  split
  · split_ifs
    · exact .rotated _
    · exact .diverged _
  · exact .diverged _

theorem ownFrameEnd (s : State) : AccessTaken s (ownFrameEnd s) := by
  unfold Machine.ownFrameEnd
  split
  · exact .reset _
  · exact .rotated _
  · exact .kept
  · exact .kept

theorem onlineEnd (s : State) : AccessTaken s (onlineEnd s) := by
  unfold Machine.onlineEnd
  split
  · exact .resync
  split
  · exact .halted
  split
  · exact ownFrameEnd s
  split
  · split
    · split
      · exact takeOrderReset_id _ _ s
      · exact .diverged _
    · exact verifyHeader _ s
  · exact placeAnswer _ s
  · exact rotateByMark s
  · exact rotateByMark s
  · exact .kept

theorem resyncEnd (s : State) : AccessTaken s (resyncEnd s) := by
  unfold Machine.resyncEnd
  split
  · exact .kept
  split
  · exact .halted
  split
  · exact .repaired _
  split
  · exact takeOrderReset_id _ _ s
  · exact .kept

theorem listeningEnd (s : State) : AccessTaken s (listeningEnd s) := by
  unfold Machine.listeningEnd
  split
  · exact .halted
  split
  · exact takeOrderReset_resync _ _ s
  · exact .resync

end AccessTaken

/-- Every access end is one of these (R56, R68, R70, R71). -/
theorem accessEndAtAc_taken (s : State) : AccessTaken s (accessEndAtAc s) := by
  unfold accessEndAtAc
  split
  case h_1 => exact .listeningEnd s
  case h_2 => exact .resyncEnd s
  case h_3 => exact .onlineEnd s
  case h_4 h =>
    unfold leavingEnd
    split
    · exact .halted
    · exact .left h
  case h_5 => exact .kept
  case h_6 => exact .kept

theorem AccessTaken.setup {s t : State} (h : AccessTaken s t) : t.ac.setup = s.ac.setup := by
  cases h <;> simp

theorem accessEndAtAc_setup (s : State) : (accessEndAtAc s).ac.setup = s.ac.setup := (accessEndAtAc_taken s).setup

theorem accessEnd_setup (m : Nat) (s : State) : (accessEnd m s).ac.setup = s.ac.setup := by
  obtain ⟨-, -, -, -, -, -, -, -, hsetup, -, -, -⟩ := accessEnd_keeps m s
  rw [hsetup, accessEndAtAc_setup]
  simp

/-! ### The law (R54) -/

/-- A rotation or a reset to ascending of a formed list is formed. -/
theorem OrderFormed.of_rotatedOrReset {s t : State} (h : OrderFormed s) (hsetup : t.ac.setup = s.ac.setup)
    (ht : OrderRotatedOrReset s t) : OrderFormed t := by
  have hroster : roster t = roster s := by simp [roster, hsetup]
  rw [OrderFormed, hroster]
  obtain hkept | ⟨a, hrotated⟩ | ⟨a, hreset⟩ := ht
  · rwa [hkept]
  · obtain hempty | hperm := h
    · exact .inl (by simp [hrotated, hempty, rotate])
    · exact .inr (hrotated ▸ (rotate_perm a _).trans hperm)
  · exact .inr (hreset ▸ rotate_perm a _)

theorem Decision.orderFormed {c : Command} {s t : State} (h : Decision c s t) (hs : OrderFormed s) : OrderFormed t := by
  cases h with
  | setup r => exact .inl rfl
  | join =>
    refine .inr ?_
    have hlist (u : State) : ListKept u (beginSensing u) := by
      simp only [beginSensing]
      split_ifs <;> exact ⟨by simp [activeAtAc], by simp [activeAtAc]⟩
    have hjoined := hlist (setStaging none (onFu (fun _ => FrameUnit.initial)
      (onPeers (fun _ => Vector.replicate 32 PeerEntry.initial) (onAc (fun a => { a with
        order := ascending a.setup.roster, restartPending := true, collisions := 0,
        tracker := RoundTracker.initial, station := .listening }) s))))
    have horder : (joinLine s).ac.order = ascending (roster s) := hjoined.order
    have hsetup : (joinLine s).ac.setup = s.ac.setup := hjoined.setup
    rw [horder, roster, roster, hsetup]
  | leave =>
    refine hs.of_kept ?_
    unfold leaveLine
    split <;> try split_ifs
    all_goals exact ⟨by simp, by simp⟩
  | _ => exact hs.of_kept (.of_eq (by simp))

theorem HostChange.orderFormed {s t : State} (h : HostChange s t) (hs : OrderFormed s) : OrderFormed t := by
  cases h with
  | decided r data hu ht =>
    obtain ⟨hport, -⟩ := hu.keeps
    have hformed := ht.orderFormed (hs.of_kept (.of_eq (by rw [hport])))
    exact hformed.of_kept (.of_eq (by simp))
  | restarted => exact .inl rfl
  | hardReset => exact .inl rfl
  | @submitted o =>
    have hsubmit : ListKept s (endSubmit o s) := by
      simp only [endSubmit]
      split_ifs
      · exact ListKept.trans (.of_eq (by simp)) (wakeIfNeeded_spec _).1.list
      · exact .of_eq (by simp)
    exact (hs.of_kept hsubmit).of_kept (.of_eq (by simp))
  | _ => exact hs.of_kept (.of_eq (by simp))

/-- An event of the line keeps the setup record, and changes the list by the operations of R55 or not at all. -/
theorem LineChange.order {s t : State} (h : LineChange s t) :
    t.ac.setup = s.ac.setup ∧ OrderRotatedOrReset s t := by
  have of_list (hk : ListKept s t) : t.ac.setup = s.ac.setup ∧ OrderRotatedOrReset s t := ⟨hk.setup, .of_kept hk.order⟩
  have hpass {u : State} (hu : u = s ∨ ∃ n, u = passTime n s) : AcWatches s u := by
    obtain rfl | ⟨n, rfl⟩ := hu
    · exact .of_eq rfl
    · exact passTime_watches n s
  cases h with
  | time n => exact of_list (passTime_watches n s).order.list
  | level x => exact of_list (.of_eq rfl)
  | active n => exact of_list ((passTime_watches n s).trans (activeEvent_watches _)).order.list
  | candidate => exact of_list (candidateStep_watches _ s).order.list
  | reading r => exact of_list (passReading_watches r s).order.list
  | held => exact of_list (.of_eq (by simp))
  | quiet hu => exact of_list ((hpass hu).trans (quietEvent_watches _)).order.list
  | free hu => exact of_list ((hpass hu).trans (declareFree_watches _)).order.list
  | @answer a due => exact of_list ((passTime_watches _ s).order.list.trans (.of_eq (sendAnswer_frame a (runTo due s)).1))
  | echoPass => exact of_list (echoPass_list _ s)
  | echoMismatch n => exact of_list ((passTime_watches n s).order.list.trans (echoMismatch_list _ _))
  | slotStart k => exact of_list (slotStart_orderKept k s).list
  | frameStart => exact of_list (frameStart_list _ s)
  | roundEnd => exact of_list (endRound_orderKept s).list
  | restDetected =>
    refine of_list (ListKept.trans (t := setStation .resync (onTracker (fun t => { t with phase := .rest, unclaimed := 8 })
      (passTime (restDetectInterval s - s.ac.tracker.restDetect) s))) ⟨by simp, by simp⟩ (wakeIfNeeded_spec _).1.list)
  | holdOffExpired => exact of_list (expireHoldOff_orderKept _ _ s).list
  | guardComplete n =>
    refine ⟨?_, completeGuard_order n s⟩
    simp only [completeGuard, accessEnd_setup]
    simp
  | stuck => exact of_list (declareStuck_list s)

theorem Change.orderFormed {s t : State} (h : Change s t) (hs : OrderFormed s) : OrderFormed t := by
  cases h with
  | nothing => exact hs
  | host h => exact h.orderFormed hs
  | line h => exact hs.of_rotatedOrReset h.order.1 h.order.2

/-- Settles O58: the list is formed anew where the setup record or a reset empties it and at JOIN, and every other change
keeps, rotates or resets it. -/
theorem stepsKeepOrderFormed : Obligations.StepsKeepOrderFormed := by
  intro s t hs hstep
  obtain ⟨rest, hchange⟩ := change_of_step hstep
  exact hchange.orderFormed hs

end Sys2Proof.Machine
end

section
/-! Messages and the blocks that hold them (chapters 07 to 09): the ways in which entries, records, blocks and the open
SUBMIT change hands, and the laws of the pool, of the tags and of the capacities, which each of those ways keeps. -/

namespace Sys2Proof.Machine

/-! ### The Host Port under the events of the line -/

theorem LineChange.hp {s t : State} (h : LineChange s t) : t.hp = s.hp := by
  have hpass {u : State} (hu : u = s ∨ ∃ n, u = passTime n s) : u.hp = s.hp := by
    obtain rfl | ⟨n, rfl⟩ := hu <;> simp
  cases h with
  | quiet hu => simpa using hpass hu
  | free hu => simpa using hpass hu
  | _ => simp

/-! ### An open SUBMIT stands between its decision and SEL high (R104, R165) -/

/-- The command that leaves an open SUBMIT behind is SUBMIT itself. -/
theorem Decision.submit_kept {c : Command} {s t : State} (h : Decision c s t) (hc : c ≠ .submit) :
    t.hp.submit = s.hp.submit := by
  cases h with
  | submit => exact absurd rfl hc
  | leave =>
    unfold leaveLine
    split <;> try split_ifs
    all_goals simp
  | _ => simp

theorem Decision.command_kept {c : Command} {s t : State} (h : Decision c s t) : t.hp.command = s.hp.command := by
  cases h with
  | leave =>
    unfold leaveLine
    split <;> try split_ifs
    all_goals simp
  | submit => rfl
  | _ => simp

/-- Before a decision no SUBMIT is open. -/
theorem SubmitFramed.none_of_not_decided {s : State} (h : SubmitFramed s) (ht : s.hp.transaction ≠ .decided) :
    s.hp.submit = none := by
  by_contra hsome
  exact ht (h (Option.isSome_iff_ne_none.mpr hsome)).1

theorem AtDecision.submit_none {c : Command} {s u : State} (hu : AtDecision c s u) (h : SubmitFramed s) :
    u.hp.submit = none := by
  obtain ⟨-, hsubmit, -, -, htransaction⟩ := hu.keeps
  rw [hsubmit]
  exact h.none_of_not_decided (by rintro hd; simp [hd] at htransaction)

theorem HostChange.submitFramed {s t : State} (h : HostChange s t) (hs : SubmitFramed s) : SubmitFramed t := by
  have of_none {u : State} (hu : u.hp.submit = none) : SubmitFramed u := by simp [SubmitFramed, hu]
  cases h with
  | @decided c u t r data hu ht =>
    obtain ⟨-, -, hcommand, -, -⟩ := hu.keeps
    by_cases hc : c = .submit
    · intro _
      exact ⟨rfl, by simp [ht.command_kept, hcommand, hc]⟩
    · exact of_none (by simp [ht.submit_kept hc, hu.submit_none hs])
  | unknown h => exact of_none (by simpa using hs.none_of_not_decided (by simp [h]))
  | opened c h => exact of_none (by simpa using hs.none_of_not_decided (by simp [h]))
  | parameter b h => exact of_none (by simpa using hs.none_of_not_decided (by simp [h]))
  | clocked h => exact hs
  | payload b h =>
    intro hsome
    exact hs (by simpa [clockStream] using hsome)
  | ignored h => exact of_none (by simpa using hs.none_of_not_decided (by simp [h]))
  | selLow h =>
    refine of_none ?_
    have hnone := hs.none_of_not_decided (by simp [h])
    unfold beginTransaction
    split_ifs <;> simpa using hnone
  | hardReset =>
    refine of_none ?_
    simp only [hardResetState]
    split_ifs <;> rfl
  | hardResetEnd => exact hs
  | _ => exact of_none rfl

theorem Change.submitFramed {s t : State} (h : Change s t) (hs : SubmitFramed s) : SubmitFramed t := by
  cases h with
  | nothing => exact hs
  | host h => exact h.submitFramed hs
  | line h => simpa [SubmitFramed, h.hp] using hs

/-! ### Entries, records, blocks and the open SUBMIT, and the ways in which they change hands -/

/-- What holds a tag or a block: the transmit entries and the open SUBMIT with tag and length, the completion records with
their tag, the receive records with their length, and the free count of the pool. -/
structure Holdings where
  entries : List (Tag × Nat)
  records : List Tag
  ring : List Nat
  free : Nat
  submit : Option (Tag × Nat)

/-- The holdings of a state. -/
def holdings (s : State) : Holdings :=
  { entries := s.te.queue.map fun e => (e.tag, e.length)
    records := s.te.completions.map (·.tag)
    ring := s.re.ring.map (·.length)
    free := s.freeBlocks
    submit := s.hp.submit.map fun o => (o.tag, o.length) }

/-- The ways in which tags and blocks change hands (chapter 09). -/
inductive Holdings.Move : Holdings → Holdings → Prop
  | finish (front rest : List (Tag × Nat)) (tag : Tag) (n : Nat) (c r f o) :
      Move ⟨front ++ (tag, n) :: rest, c, r, f, o⟩ ⟨front ++ rest, c ++ [tag], r, f + blocksFor n, o⟩
  | store (n : Nat) (q c r f o) (hring : r.length < 32) (hblocks : blocksFor n ≤ f) :
      Move ⟨q, c, r, f, o⟩ ⟨q, c, r ++ [n], f - blocksFor n, o⟩
  | release (n : Nat) (q c r f o) : Move ⟨q, c, n :: r, f, o⟩ ⟨q, c, r, f + blocksFor n, o⟩
  | take (q c r f o) : Move ⟨q, c, r, f, o⟩ ⟨q, c.drop 1, r, f, o⟩
  | grant (tag : Tag) (n : Nat) (q c r f) (hq : tag ∉ q.map Prod.fst) (hc : tag ∉ c) (hroom : q.length + c.length < 32)
      (hreserve : blocksFor n = 0 ∨ blocksFor n + 16 ≤ f) :
      Move ⟨q, c, r, f, none⟩ ⟨q, c, r, f - blocksFor n, some (tag, n)⟩
  | join (tag : Tag) (n : Nat) (q c r f) : Move ⟨q, c, r, f, some (tag, n)⟩ ⟨q ++ [(tag, n)], c, r, f, none⟩
  | giveUp (tag : Tag) (n : Nat) (q c r f) : Move ⟨q, c, r, f, some (tag, n)⟩ ⟨q, c, r, f + blocksFor n, none⟩
  | reset (h : Holdings) : Move h ⟨[], [], [], 192, none⟩

/-- Tags and blocks change hands in these ways only. -/
def Moved (s t : State) : Prop := Relation.ReflTransGen Holdings.Move (holdings s) (holdings t)

namespace Moved

theorem of_eq {s t : State} (h : holdings t = holdings s) : Moved s t := by
  rw [Moved, h]

theorem of_move {s t : State} (h : Holdings.Move (holdings s) (holdings t)) : Moved s t := Relation.ReflTransGen.single h

theorem trans {s t u : State} (h : Moved s t) (h' : Moved t u) : Moved s u := Relation.ReflTransGen.trans h h'

/-- Only the holdings matter. -/
theorem of_holdings {s s' t t' : State} (h : Moved s' t') (hs : holdings s' = holdings s) (ht : holdings t' = holdings t) :
    Moved s t := by
  rwa [Moved, ← hs, ← ht]

end Moved

/-- The holdings stand in the TE, the ring, the pool and the open SUBMIT. -/
theorem holdings_congr {s t : State} (hte : t.te = s.te) (hring : t.re.ring = s.re.ring) (hfree : t.freeBlocks = s.freeBlocks)
    (hsubmit : t.hp.submit = s.hp.submit) : holdings t = holdings s := by
  simp [holdings, hte, hring, hfree, hsubmit]

/-! ### Entries of the transmit queue -/

/-- A change of an entry that keeps its tag and its length moves nothing. -/
theorem holdings_updateEntry (tag : Tag) (f : TxEntry → TxEntry) (s : State)
    (hf : ∀ e, (f e).tag = e.tag ∧ (f e).length = e.length := by exact fun _ => ⟨rfl, rfl⟩) :
    holdings (updateEntry tag f s) = holdings s := by
  have hmap (e : TxEntry) : (if e.tag = tag then f e else e).tag = e.tag ∧
      (if e.tag = tag then f e else e).length = e.length := by
    split_ifs
    · exact hf e
    · exact ⟨rfl, rfl⟩
  simp [holdings, hmap]

/-- The entry found, with the entries before and behind it. -/
theorem findEntry_split {s : State} {tag : Tag} {e : TxEntry} (h : findEntry s tag = some e) :
    ∃ front rest, s.te.queue = front ++ e :: rest ∧ s.te.queue.eraseP (·.tag == tag) = front ++ rest := by
  obtain ⟨htag, front, rest, hq, hfront⟩ := List.find?_eq_some_iff_append.mp h
  refine ⟨front, rest, hq, ?_⟩
  rw [hq, List.eraseP_append_right _ (fun x hx => by simpa using hfront x hx), List.eraseP_cons_of_pos (by simpa using htag)]

theorem finishEntry_moved (tag : Tag) (outcome : MessageOutcome) (note : Bool) (s : State) :
    Moved s (finishEntry tag outcome note s) := by
  cases hfound : findEntry s tag with
  | none => exact .of_eq (by rw [finishEntry_absent hfound])
  | some e =>
    obtain ⟨hte, hfree, -⟩ := finishEntry_found hfound outcome note
    obtain ⟨front, rest, hqueue, herase⟩ := findEntry_split hfound
    refine .of_move ?_
    have hmove := Holdings.Move.finish (front.map fun e => (e.tag, e.length)) (rest.map fun e => (e.tag, e.length)) e.tag
      e.length (s.te.completions.map (·.tag)) (s.re.ring.map (·.length)) s.freeBlocks
      (s.hp.submit.map fun o => (o.tag, o.length))
    rw [herase] at hte
    simpa [holdings, hte, hfree, hqueue, TxEntry.completion] using hmove

theorem abortAttempt_moved (tag : Tag) (s : State) : Moved s (abortAttempt tag s) := by
  unfold abortAttempt
  split
  · exact .of_eq rfl
  · split_ifs
    · exact finishEntry_moved tag _ _ s
    · exact .of_eq (holdings_updateEntry tag _ s)

theorem recordJudgement_moved (tag : Tag) (a : Nat) (judged : Option AnswerCode) (s : State) :
    Moved s (recordJudgement tag a judged s) := by
  obtain ⟨hte, hfree, -⟩ := recordJudgement_spec s tag a judged
  refine .of_eq ((holdings_congr (s := updateEntry tag (·.answered judged) s) hte (by simp) (by simp) (by simp)).trans ?_)
  exact holdings_updateEntry tag _ s

theorem applyOutcome_moved (tag : Tag) (judged : Option AnswerCode) (s : State) : Moved s (applyOutcome tag judged s) := by
  simp only [applyOutcome]
  split
  · exact .of_eq rfl
  · split
    · exact finishEntry_moved tag _ _ s
    · split
      · exact (recordJudgement_moved tag _ judged s).trans (finishEntry_moved tag _ _ _)
      · split_ifs
        · exact (recordJudgement_moved tag _ judged s).trans (finishEntry_moved tag _ _ _)
        · exact (recordJudgement_moved tag _ judged s).trans (.of_eq (holdings_updateEntry tag _ _))

theorem takeOutcome_moved (s : State) : Moved s (takeOutcome s) := by
  have hclosed (u : State) : Moved u (setWindow .closed u) := .of_eq (holdings_congr (by simp) (by simp) (by simp) (by simp))
  simp only [takeOutcome]
  refine Moved.trans ?_ (hclosed _)
  split
  · split
    · exact applyOutcome_moved _ _ s
    · exact .of_eq rfl
  · exact .of_eq rfl

theorem flushQueue_moved (s : State) : Moved s (flushQueue s) := by
  unfold flushQueue
  generalize s.te.queue = q
  induction q generalizing s with
  | nil => exact .of_eq rfl
  | cons e q ih => exact (finishEntry_moved e.tag .withdrawn false s).trans (ih _)

theorem enterOffline_moved (s : State) : Moved s (enterOffline s) :=
  (flushQueue_moved (endSensing s)).of_holdings (holdings_congr (by simp) (by simp) (by simp) (by simp))
    (holdings_congr (by simp [enterOffline]) (by simp) (by simp [enterOffline]) (by simp))

theorem halt_moved (s : State) : Moved s (halt s) :=
  .of_eq (holdings_congr (by simp) (by simp) (by simp) (by simp))

theorem frameMismatch_moved (s : State) : Moved s (frameMismatch s) := by
  have hprogress (u : State) : Moved u (setProgress .mismatched u) :=
    .of_eq (holdings_congr (by simp) (by simp) (by simp) (by simp))
  have hraise (u : State) : Moved u (raise .collision none none u) :=
    .of_eq (holdings_congr (by simp) (by simp) (by simp) (by simp))
  have hcount (u : State) : Moved u (onAc (fun a => { a with collisions := min 4 (a.collisions + 1) }) u) :=
    .of_eq (holdings_congr rfl rfl rfl rfl)
  have htaken (c : OwnClaim) : Moved s (match c.content with
      | .entry tag => abortAttempt tag (setProgress .mismatched s)
      | .orderReset => setProgress .mismatched s
      | .wake => setProgress .mismatched s) := by
    refine (hprogress s).trans ?_
    split
    · exact abortAttempt_moved _ _
    · exact .of_eq rfl
    · exact .of_eq rfl
  simp only [frameMismatch]
  split
  · exact .of_eq rfl
  case h_2 c _ =>
    split_ifs
    · exact (((htaken c).trans (hraise _)).trans (hcount _)).trans (halt_moved _)
    · exact ((htaken c).trans (hraise _)).trans (hcount _)
    · exact (htaken c).trans (hraise _)

theorem withdrawClaim_moved (s : State) : Moved s (withdrawClaim s) := by
  have hprogress : Moved s (setProgress .withdrawn s) := .of_eq (holdings_congr (by simp) (by simp) (by simp) (by simp))
  simp only [withdrawClaim]
  split
  · exact .of_eq rfl
  · split
    · exact hprogress.trans (abortAttempt_moved _ _)
    · exact hprogress
    · exact hprogress

end Sys2Proof.Machine
end

section
/-! The laws of the pool, of the tags and of the capacities over every step (chapters 07 to 09): what every change does to
the holdings, and that each way in which they change hands keeps the laws. -/

namespace Sys2Proof.Machine

/-! ### The Receive Engine (R127, R129, R135) -/

/-- Nothing of the Receive Engine changes but the staging buffer. -/
def Staged (s t : State) : Prop := t.re = { s.re with staging := t.re.staging }

theorem Staged.of_eq {s t : State} (h : t.re = s.re) : Staged s t := by
  rw [Staged, h]

theorem Staged.trans {s t u : State} (h : Staged s t) (h' : Staged t u) : Staged s u := by
  unfold Staged at *
  rw [h', h]

theorem Staged.ring {s t : State} (h : Staged s t) : t.re.ring = s.re.ring := by
  rw [h]

theorem Staged.missed {s t : State} (h : Staged s t) : t.re.missed = s.re.missed := by
  rw [h]

theorem openStaging_staged (h : Header) (s : State) : Staged s (openStaging h s) := by
  unfold openStaging
  split
  · simp [Staged]
  · exact .of_eq rfl

theorem headerValid_staged (h : Header) (s : State) : Staged s (headerValid h s) := by
  simp only [headerValid]
  split_ifs
  · exact Staged.trans (.of_eq (by simp)) (openStaging_staged h (reportFrame _ _))
  · exact Staged.trans (.of_eq (by simp)) (openStaging_staged h (peerHeard h.source _))

theorem takeHeaderByte_staged (b : Byte) (s : State) : Staged s (takeHeaderByte b s) := by
  simp only [takeHeaderByte]
  split_ifs
  · split
    · exact Staged.trans (.of_eq (by simp)) (headerValid_staged _ _)
    · exact .of_eq (by simp)
  · exact .of_eq (by simp)

theorem takeHeader_staged (r : Reading) (s : State) : Staged s (takeHeader r s) := by
  have hbit (b : Bool) : Staged s (takeHeaderBit b s) := by
    simp only [takeHeaderBit]
    split_ifs
    · exact takeHeaderByte_staged _ s
    · exact .of_eq (by simp)
  cases r with
  | one => exact hbit true
  | zero => exact hbit false
  | bad => exact .of_eq (by simp [takeHeader])

theorem takeBodyByte_staged (b : Byte) (s : State) : Staged s (takeBodyByte b s) := by
  simp only [takeBodyByte]
  split_ifs <;> simp [Staged]

theorem takeBody_staged (r : Reading) (s : State) : Staged s (takeBody r s) := by
  have hbad : Staged s (if r == .bad then nextChoice s else s) := by split_ifs <;> exact .of_eq rfl
  have hcomplete (u : State) : Staged u (if u.fu.deframer.expected = 0 then bodyComplete u else u) := by
    split_ifs <;> exact .of_eq (by simp)
  have hbyte (bits : List Bool) (u : State) : Staged u (if bits.length = 8 then takeBodyByte (byteOfBits bits) u else u) := by
    split_ifs
    · exact takeBodyByte_staged _ u
    · exact .of_eq rfl
  exact ((hbad.trans (.of_eq (by simp))).trans (hbyte _ (onDeframer _ _))).trans (hcomplete _)

theorem takeOverrun_staged (s : State) : Staged s (takeOverrun s) := by
  simp only [takeOverrun]
  split_ifs <;> split <;> simp [Staged]

theorem takeReading_staged (r : Reading) (s : State) : Staged s (takeReading r s) := by
  unfold takeReading
  split
  case h_3 => exact takeHeader_staged r s
  case h_4 => exact takeBody_staged r s
  case h_5 =>
    unfold takeTail
    split_ifs
    · exact takeOverrun_staged s
    · exact .of_eq (by simp)
  all_goals exact .of_eq (by simp)

theorem readingStep_staged (r : Reading) (s : State) : Staged s (readingStep r s) :=
  Staged.trans (.of_eq (by simp)) (takeReading_staged r (handReading s))

theorem passReading_staged (r : Reading) (s : State) : Staged s (passReading r s) := by
  have hheld : Staged s (passHeld s) := by
    unfold passHeld
    split_ifs
    · exact Staged.trans (.of_eq (by simp)) (readingStep_staged .bad (setHeld false s))
    · exact .of_eq rfl
  exact hheld.trans (readingStep_staged r _)

theorem truncatedEnd_staged (s : State) : Staged s (truncatedEnd s) := by
  simp only [truncatedEnd]
  split <;> simp [Staged]

/-! ### The frame end (R128 to R136) -/

theorem roomFor_iff {n : Nat} {s : State} : roomFor n s = true ↔ s.re.ring.length < 32 ∧ blocksFor n ≤ s.freeBlocks := by
  simp [roomFor]

theorem storeFrame_moved (kind : RecordKind) {h : FrameHeader} {s : State} (hroom : roomFor h.length s = true) :
    Moved s (storeFrame kind h s) := by
  obtain ⟨hring, hblocks⟩ := roomFor_iff.mp hroom
  refine .of_move ?_
  have hmove := Holdings.Move.store h.length (s.te.queue.map fun e => (e.tag, e.length)) (s.te.completions.map (·.tag))
    (s.re.ring.map (·.length)) s.freeBlocks (s.hp.submit.map fun o => (o.tag, o.length)) (by simpa using hring) hblocks
  simpa [holdings, storeFrame] using hmove

/-- An accepted frame has room: that was the last test before (R129). -/
theorem roomFor_of_directCode {good : Bool} {h : FrameHeader} {s : State} (hcode : directCode good h s = .accepted) :
    roomFor h.length s = true := by
  by_contra hroom
  rw [Bool.not_eq_true] at hroom
  simp only [directCode, hroom] at hcode
  split_ifs at hcode with _ _ _ hfull
  exact hfull rfl

theorem directDecision_moved (good : Bool) (h : FrameHeader) (s : State) : Moved s (directDecision good h s) := by
  have hdue (u : State) (code : AnswerCode) : Moved u (answerDue h.source code h.sequence u) :=
    .of_eq (holdings_congr (by simp) (by simp) (by simp) (by simp))
  refine Moved.trans ?_ (hdue _ _)
  cases hcode : directCode good h s with
  | accepted =>
    exact (storeFrame_moved .direct (roomFor_of_directCode hcode)).trans (.of_eq (holdings_congr rfl rfl rfl rfl))
  | full => exact .of_eq rfl
  | _ => exact .of_eq rfl

theorem broadcastDecision_moved (good : Bool) (h : FrameHeader) (s : State) : Moved s (broadcastDecision good h s) := by
  unfold broadcastDecision
  split_ifs with hbad hclosed hroom
  · exact .of_eq rfl
  · exact .of_eq rfl
  · exact .of_eq (holdings_congr rfl rfl rfl rfl)
  · exact storeFrame_moved .all (by simpa using hroom)

/-- The decisions that the Receive Engine takes at a frame end (R128). -/
inductive FrameDecided (good : Bool) (s : State) : State → Prop
  | none : FrameDecided good s s
  | direct (h : FrameHeader) : FrameDecided good s (directDecision good h s)
  | probe (h : FrameHeader) : FrameDecided good s (probeDecision good h s)
  | broadcast (h : FrameHeader) : FrameDecided good s (broadcastDecision good h s)

/-- A frame end brings one decision or none, and the staging buffer is gone (R127, R128). -/
theorem receiveDecision_cases (good : Bool) (header : Header) (s : State) :
    ∃ u, FrameDecided good s u ∧ receiveDecision good header s = setStaging none u := by
  unfold receiveDecision
  refine ⟨_, ?_, rfl⟩
  split
  case h_1 => exact .none
  case h_2 h =>
    split
    · exact .none
    split
    · split
      · exact .direct h
      · exact .none
    · split
      · exact .probe h
      · exact .none
    · exact .broadcast h
    · exact .none

theorem receiveDecision_moved (good : Bool) (header : Header) (s : State) : Moved s (receiveDecision good header s) := by
  obtain ⟨u, hu, h⟩ := receiveDecision_cases good header s
  have hstaging : Moved u (setStaging none u) := .of_eq (holdings_congr (by simp) (by simp) (by simp) (by simp))
  rw [h]
  refine Moved.trans ?_ hstaging
  cases hu with
  | none => exact .of_eq rfl
  | direct f => exact directDecision_moved good f s
  | probe f => exact .of_eq (holdings_congr (by simp) (by simp) (by simp) (by simp))
  | broadcast f => exact broadcastDecision_moved good f s

theorem frameEnd_moved (h : Header) (s : State) : Moved s (frameEnd h s) := by
  simp only [frameEnd]
  split_ifs
  all_goals exact Moved.trans (.of_eq (holdings_congr (by simp) (by simp) (by simp) (by simp))) (receiveDecision_moved _ h _)

theorem candidateEnd_moved (s : State) : Moved s (candidateEnd s) := by
  have hquiet (u : State) : Moved u (quietDeframer u) := .of_eq (holdings_congr (by simp) (by simp) (by simp) (by simp))
  obtain h | h | ⟨f, h⟩ := candidateEnd_cases s <;> rw [h]
  · exact hquiet s
  · exact Moved.trans (.of_eq (holdings_congr (by simp) (truncatedEnd_staged s).ring (by simp) (by simp))) (hquiet _)
  · exact (frameEnd_moved f s).trans (hquiet _)

theorem burstEnd_moved (b : Burst) (s : State) : Moved s (burstEnd b s) := by
  have hcandidate : Moved s (if b.candidate && !b.isPartial then candidateEnd (quietAtLi b s) else quietAtLi b s) := by
    split_ifs
    · exact (candidateEnd_moved _).of_holdings (holdings_congr (by simp) (by simp) (by simp) (by simp)) rfl
    · exact .of_eq (holdings_congr (by simp) (by simp) (by simp) (by simp))
  have hend (u : State) : Moved u (burstEndAtAc b (windowAtBurstEnd b (windowAnswer s) u)) :=
    .of_eq (holdings_congr (by simp) (by simp) (by simp) (by simp))
  exact hcandidate.trans (hend _)

theorem quietEvent_moved (s : State) : Moved s (quietEvent s) := by
  unfold quietEvent
  split
  · exact burstEnd_moved _ s
  · exact .of_eq rfl

/-! ### The access end and the stuck event -/

/-- The access end at the AC leaves the messages, but for the flush of a station that leaves (R84). -/
theorem AccessTaken.moved {s t : State} (h : AccessTaken s t) : Moved s t := by
  cases h with
  | kept => exact .of_eq rfl
  | halted => exact halt_moved s
  | left => exact enterOffline_moved s
  | _ => exact .of_eq (holdings_congr (by simp) (by simp) (by simp) (by simp))

theorem accessEnd_moved (m : Nat) (s : State) : Moved s (accessEnd m s) := by
  obtain ⟨-, -, hte, hre, -, hfree, -⟩ := accessEnd_keeps m s
  exact ((takeOutcome_moved s).trans (accessEndAtAc_taken _).moved).of_holdings rfl
    (holdings_congr hte (by rw [hre]) hfree (by simp)).symm

theorem stuckNotices_moved (s : State) : Moved s (stuckNotices s) := by
  have hline (u : State) : Moved u (raise .lineStuck none none u) :=
    .of_eq (holdings_congr (by simp) (by simp) (by simp) (by simp))
  have hchoice : Moved s (nextChoice s) := .of_eq rfl
  unfold stuckNotices
  split_ifs
  · exact (hchoice.trans (takeOutcome_moved _)).trans (hline _)
  · exact (hchoice.trans (hline _)).trans (takeOutcome_moved _)
  · exact (hline s).trans (takeOutcome_moved _)

theorem stationAtStuck_moved (s : State) : Moved s (stationAtStuck s) := by
  unfold stationAtStuck
  split
  · exact .of_eq (holdings_congr (by simp) (by simp) (by simp) (by simp))
  · exact enterOffline_moved s
  all_goals exact .of_eq rfl

theorem declareStuck_moved (s : State) : Moved s (declareStuck s) := by
  have hstuck : Moved s (onLi (fun l => { l with sensing := .stuck }) (passTime (stuckLimit - s.li.stuckTimer) s)) :=
    .of_eq (holdings_congr (by simp) (by simp) (by simp) (by simp))
  have hempty (u : State) : Moved u (onAccess (fun _ => AccessRecord.empty) u) :=
    .of_eq (holdings_congr (by simp) (by simp) (by simp) (by simp))
  exact ((hstuck.trans (stuckNotices_moved _)).trans (hempty _)).trans (stationAtStuck_moved _)

/-! ### The driver, slots and frames -/

theorem echoPass_moved (x : Transmission) (s : State) : Moved s (echoPass x s) := by
  have hfinish : Moved s (finishTransmission x s) := .of_eq (holdings_congr (by simp) (by simp) (by simp) (by simp))
  have hframe (r : FrameRequest) (u : State) : Moved u (framePassed r u) := by
    have hattempt (v : State) : Moved v (match claimContent v with
        | some (.entry tag) => updateEntry tag (fun e => { e with attempts := e.attempts + 1 }) v
        | some .orderReset => v
        | some .wake => v
        | none => v) := by
      split
      · exact .of_eq (holdings_updateEntry _ _ _)
      all_goals exact .of_eq rfl
    have hwindow (v : State) (p : Prop) [Decidable p] (w : Window) : Moved v (if p then setWindow w v else v) := by
      split_ifs
      · exact .of_eq (holdings_congr (by simp) (by simp) (by simp) (by simp))
      · exact .of_eq rfl
    have hpassed : Moved u (onAc (fun a => { a with collisions := 0, restartPending := a.restartPending && !r.restarts })
        (setProgress .passed (setFramer .idle u))) := .of_eq (holdings_congr (by simp) (by simp) (by simp) (by simp))
    exact (hpassed.trans (hattempt _)).trans (hwindow _ _ _)
  simp only [echoPass]
  split
  · exact hfinish.trans (.of_eq (holdings_congr (by simp) (by simp) (by simp) (by simp)))
  · split
    · exact hfinish.trans (hframe _ _)
    · exact hfinish
  · exact hfinish.trans (.of_eq (holdings_congr (by simp) (by simp) (by simp) (by simp)))

theorem echoMismatch_moved (x : Transmission) (s : State) : Moved s (echoMismatch x s) := by
  have hmarked : Moved s (markPartial (releaseDriver s)) :=
    .of_eq (holdings_congr (by simp) (by simp [markPartial]) (by simp) (by simp))
  have hidle (u : State) : Moved u (setFramer .idle u) := .of_eq (holdings_congr (by simp) (by simp) (by simp) (by simp))
  unfold echoMismatch mismatchAtOwner
  split
  · split_ifs
    · exact hmarked.trans (withdrawClaim_moved _)
    · exact hmarked
  · exact (hmarked.trans (hidle _)).trans (frameMismatch_moved _)
  · exact hmarked.trans (hidle _)

theorem launchEntry_moved (content : ClaimContent) (s : State) : Moved s (launchEntry content s) := by
  unfold launchEntry
  split
  · split
    · exact .of_eq (holdings_updateEntry _ _ s)
    · exact .of_eq rfl
  all_goals exact .of_eq rfl

theorem claimSlot_moved (k : Nat) (content : ClaimContent) (s : State) : Moved s (claimSlot k content s) := by
  have hclaim (c : Option OwnClaim) (u : State) : Moved u (setClaim c u) :=
    .of_eq (holdings_congr (by simp) (by simp) (by simp) (by simp))
  have hstart (u : State) : Moved u (startTransmission .mark markSymbols u) :=
    .of_eq (holdings_congr (by simp) (by simp) (by simp) (by simp))
  simp only [claimSlot]
  split_ifs
  · exact ((launchEntry_moved _ _).trans (hclaim _ _)).trans (withdrawClaim_moved _)
  · exact ((launchEntry_moved _ _).trans (hclaim _ _)).trans (hstart _)

theorem slotStart_moved (k : Nat) (s : State) : Moved s (slotStart k s) := by
  have hstart : Moved s (onTracker (fun t => { t with slotTaken := true }) (runTo (slotStartTime s k) s)) :=
    .of_eq (holdings_congr (by simp) (by simp) (by simp) (by simp))
  simp only [slotStart]
  split
  · exact hstart.trans (claimSlot_moved _ _ _)
  · exact hstart

theorem frameStart_moved (c : OwnClaim) (s : State) : Moved s (frameStart c s) := by
  have hrun : Moved s (runTo (c.markedAt + s.ac.setup.slot) s) :=
    .of_eq (holdings_congr (by simp) (by simp) (by simp) (by simp))
  have hsent (u : State) : Moved u (setProgress .sent u) := .of_eq (holdings_congr (by simp) (by simp) (by simp) (by simp))
  simp only [frameStart]
  split
  · refine hrun.trans ?_
    simp only [sendFrame]
    split_ifs
    · exact (hsent _).trans (.of_eq (holdings_congr (by simp) (by simp) (by simp) (by simp)))
    · exact (hsent _).trans (frameMismatch_moved _)
  · exact hrun

/-- What every event of the line does to the holdings. -/
theorem LineChange.moved {s t : State} (h : LineChange s t) : Moved s t := by
  have hpass {u : State} (hu : u = s ∨ ∃ n, u = passTime n s) : Moved s u := by
    obtain rfl | ⟨n, rfl⟩ := hu
    · exact .of_eq rfl
    · exact .of_eq (holdings_congr (by simp) (by simp) (by simp) (by simp))
  cases h with
  | reading r => exact .of_eq (holdings_congr (by simp) (passReading_staged r s).ring (by simp) (by simp))
  | quiet hu => exact (hpass hu).trans (quietEvent_moved _)
  | free hu =>
    exact ((hpass hu).trans (.of_eq (holdings_congr (by simp) (by simp) (by simp) (by simp)))).trans
      (quietEvent_moved (raise .lineFree none none _))
  | echoPass => exact echoPass_moved _ s
  | echoMismatch n => exact (hpass (.inr ⟨n, rfl⟩)).trans (echoMismatch_moved _ _)
  | slotStart k => exact slotStart_moved k s
  | frameStart => exact frameStart_moved _ s
  | guardComplete n => exact (hpass (.inr ⟨guardBits - n, rfl⟩)).trans (accessEnd_moved _ _)
  | stuck => exact declareStuck_moved s
  | _ => exact .of_eq (holdings_congr (by simp) (by simp) (by simp) (by simp))

/-! ### The host's commands -/

/-- What an accepted SUBMIT has passed, beside its state and its destination (R105, R146). -/
theorem submitReply_ok {o : OpenSubmit} {s : State} (h : submitReply o s = .ok) :
    o.tag ∉ s.te.queue.map (·.tag) ∧ o.tag ∉ s.te.completions.map (·.tag) ∧
      s.te.queue.length + s.te.completions.length < 32 ∧ (blocksFor o.length = 0 ∨ blocksFor o.length + 16 ≤ s.freeBlocks) ∧
      s.ac.station.takesSubmit = true := by
  unfold submitReply at h
  split_ifs at h with hstate _ _ htag hfull hreserve
  simp only [tagHeld, Bool.or_eq_true, not_or, List.any_eq_true, not_exists, not_and, beq_iff_eq] at htag
  simp only [Bool.not_eq_true', Bool.not_eq_false, reserveGrants, Bool.or_eq_true, beq_iff_eq, decide_eq_true_eq]
    at hstate hreserve
  refine ⟨?_, ?_, by omega, ?_, hstate⟩
  · simpa using htag.1
  · simpa using htag.2
  · exact hreserve.imp (fun hzero => by simp [blocksFor, hzero]) id

theorem openRequest_moved {o : OpenSubmit} {s : State} (h : submitReply o s = .ok) (hnone : s.hp.submit = none) :
    Moved s (openRequest o s) := by
  obtain ⟨hq, hc, hroom, hreserve, -⟩ := submitReply_ok h
  have hmove := Holdings.Move.grant o.tag o.length (s.te.queue.map fun e => (e.tag, e.length)) (s.te.completions.map (·.tag))
    (s.re.ring.map (·.length)) s.freeBlocks (by simpa using hq) hc (by simpa using hroom) hreserve
  exact .of_move (by simpa [holdings, openRequest, hnone] using hmove)

theorem Decision.moved {c : Command} {s t : State} (h : Decision c s t) (hnone : s.hp.submit = none) : Moved s t := by
  cases h with
  | reply => exact .of_eq rfl
  | setup => exact .of_eq (holdings_congr rfl rfl rfl rfl)
  | join =>
    refine .of_eq (holdings_congr (by simp) ?_ (by simp) (by simp))
    simp [joinLine]
  | leave =>
    unfold leaveLine
    split <;> try split_ifs
    all_goals first
      | exact enterOffline_moved s
      | exact .of_eq (holdings_congr (by simp) (by simp) (by simp) (by simp))
  | submit o h => exact openRequest_moved h hnone
  | cancelWaiting => exact finishEntry_moved _ _ _ s
  | cancelInFlight tag => exact .of_eq (holdings_updateEntry tag _ s)
  | gate => exact .of_eq (holdings_congr (by simp) (by simp) (by simp) (by simp))
  | @release _ r rest hring =>
    have hmove := Holdings.Move.release r.length (s.te.queue.map fun e => (e.tag, e.length)) (s.te.completions.map (·.tag))
      (rest.map (·.length)) s.freeBlocks (s.hp.submit.map fun o => (o.tag, o.length))
    exact .of_move (by simpa [holdings, hring] using hmove)
  | mask => exact .of_eq (holdings_congr rfl rfl rfl rfl)

theorem endSubmit_moved {o : OpenSubmit} {s : State} (h : s.hp.submit = some o) : Moved s (endSubmit o s) := by
  simp only [endSubmit]
  split_ifs
  · have hmove := Holdings.Move.join o.tag o.length (s.te.queue.map fun e => (e.tag, e.length))
      (s.te.completions.map (·.tag)) (s.re.ring.map (·.length)) s.freeBlocks
    exact .of_move (by simpa [holdings, h, OpenSubmit.entry] using hmove)
  · have hmove := Holdings.Move.giveUp o.tag o.length (s.te.queue.map fun e => (e.tag, e.length))
      (s.te.completions.map (·.tag)) (s.re.ring.map (·.length)) s.freeBlocks
    exact .of_move (by simpa [holdings, h] using hmove)

/-- What the host's side does to the holdings. -/
theorem HostChange.moved {s t : State} (h : HostChange s t) (hs : SubmitFramed s) : Moved s t := by
  have hnone_of (hd : s.hp.transaction ≠ .decided ∨ s.hp.command ≠ some .submit) : s.hp.submit = none := by
    by_contra hsome
    obtain ⟨hdecided, hsubmit⟩ := hs (Option.isSome_iff_ne_none.mpr hsome)
    exact hd.elim (· hdecided) (· hsubmit)
  have hclosed {u : State} (hu : u.hp.submit = none) : Moved u (closeTransaction u) :=
    .of_eq (holdings_congr (by simp) (by simp) (by simp) (by simp [HostPort.between, hu]))
  have hreset {u : State} (hu : holdings u = ⟨[], [], [], 192, none⟩) : Moved s u :=
    .of_move (hu ▸ .reset _)
  cases h with
  | decided r data hu ht =>
    obtain ⟨hport, hsubmit, -, -, -⟩ := hu.keeps
    refine (ht.moved (hu.submit_none hs)).of_holdings ?_ (holdings_congr (by simp) (by simp) (by simp) (by simp)).symm
    exact holdings_congr (by rw [hport]) (by rw [hport]) (by rw [hport]) hsubmit
  | payload b h =>
    refine .of_eq ?_
    cases hsubmit : s.hp.submit <;> simp [holdings, clockStream, hsubmit]
  | selLow h =>
    refine .of_eq (holdings_congr (by simp) (by simp) (by simp) ?_)
    unfold beginTransaction
    split_ifs <;> rfl
  | closed h =>
    refine hclosed ?_
    by_cases hd : s.hp.transaction = .decided
    · by_cases hc : s.hp.command = some .submit
      · exact h hd hc
      · exact hnone_of (.inr hc)
    · exact hnone_of (.inl hd)
  | @submitted o h ho =>
    refine (endSubmit_moved ho).trans (hclosed ?_)
    simp only [endSubmit]
    split_ifs <;> simp
  | completionTaken h =>
    have hnone := hnone_of (.inr (by simp [h]))
    have hmove := Holdings.Move.take (s.te.queue.map fun e => (e.tag, e.length)) (s.te.completions.map (·.tag))
      (s.re.ring.map (·.length)) s.freeBlocks none
    exact Moved.trans (.of_move (by simpa [holdings, hnone] using hmove)) (hclosed hnone)
  | noticeTaken h =>
    have hnone := hnone_of (.inr (by simp [h]))
    exact Moved.trans (.of_eq (holdings_congr rfl rfl rfl rfl)) (hclosed hnone)
  | restarted => exact hreset rfl
  | hardReset =>
    refine hreset ?_
    simp only [hardResetState]
    split_ifs <;> rfl
  | _ => exact .of_eq (holdings_congr (by simp) (by simp) (by simp) (by simp [clockStream]))

theorem Change.moved {s t : State} (h : Change s t) (hs : SubmitFramed s) : Moved s t := by
  cases h with
  | nothing => exact .of_eq rfl
  | host h => exact h.moved hs
  | line h => exact h.moved

/-! ### The laws, on the holdings -/

namespace Holdings

/-- The blocks of the transmit side: entries and the reservation (R144). -/
def sendBlocks (h : Holdings) : Nat := (h.entries.map (blocksFor ·.2)).sum + h.submit.elim 0 (blocksFor ·.2)

/-- The conservation law and the reserve (R150, R146). -/
def Balanced (h : Holdings) : Prop :=
  h.free + h.sendBlocks + (h.ring.map blocksFor).sum = 192 ∧ h.sendBlocks ≤ 176

/-- The tags that are held (R104). -/
def tags (h : Holdings) : List Tag := h.entries.map Prod.fst ++ h.records ++ (h.submit.map Prod.fst).toList

/-- The capacities of the collections (R104, R138). -/
def Fits (h : Holdings) : Prop :=
  h.entries.length + h.records.length + h.submit.toList.length ≤ 32 ∧ h.ring.length ≤ 32

theorem Move.balanced {h h' : Holdings} (m : Move h h') (hb : h.Balanced) : h'.Balanced := by
  cases m <;> simp [Balanced, sendBlocks] at hb ⊢ <;> omega

theorem Move.nodup {h h' : Holdings} (m : Move h h') (hd : h.tags.Nodup) : h'.tags.Nodup := by
  cases m with
  | finish front rest tag n c r f o =>
    refine (List.Perm.nodup_iff ?_).mp hd
    have hperm (l₁ l₂ l₃ l₄ : List Tag) : (l₁ ++ tag :: (l₂ ++ (l₃ ++ l₄))).Perm (l₁ ++ (l₂ ++ (l₃ ++ tag :: l₄))) :=
      .append_left _ (by simpa using (List.perm_middle (l₁ := l₂ ++ l₃) (a := tag) (l₂ := l₄)).symm)
    simpa [tags] using hperm (front.map Prod.fst) (rest.map Prod.fst) c (o.map Prod.fst).toList
  | store => exact hd
  | release => exact hd
  | take q c r f o =>
    refine hd.sublist ?_
    simp only [tags]
    exact ((List.drop_sublist 1 c).append_left _).append_right _
  | grant tag n q c r f hq hc =>
    simp only [tags, Option.map_none, Option.toList_none, List.append_nil] at hd
    simp only [tags, Option.map_some, Option.toList_some]
    refine List.nodup_append.mpr ⟨hd, List.nodup_singleton tag, fun x hx y hy => ?_⟩
    rintro rfl
    obtain rfl := List.mem_singleton.mp hy
    exact (List.mem_append.mp hx).elim hq hc
  | join tag n q c r f =>
    refine (List.Perm.nodup_iff ?_).mp hd
    have hperm (l₁ l₂ : List Tag) : (l₁ ++ (l₂ ++ [tag])).Perm (l₁ ++ tag :: l₂) :=
      .append_left _ (List.perm_append_singleton tag l₂)
    simpa [tags] using hperm (q.map Prod.fst) c
  | giveUp tag n q c r f => exact hd.sublist (by simp [tags])
  | reset => simp [tags]

theorem Move.fits {h h' : Holdings} (m : Move h h') (hf : h.Fits) : h'.Fits := by
  cases m <;> simp [Fits] at hf ⊢ <;> omega

end Holdings

/-- What each way of changing hands keeps, every change keeps. -/
theorem Moved.keeps {p : Holdings → Prop} (hp : ∀ h h', Holdings.Move h h' → p h → p h') {s t : State} (h : Moved s t)
    (hs : p (holdings s)) : p (holdings t) := by
  unfold Moved at h
  generalize holdings s = a, holdings t = b at h hs ⊢
  induction h with
  | refl => exact hs
  | tail _ hmove ih => exact hp _ _ hmove ih

/-! ### The laws, on the state -/

theorem holdings_balanced_iff (s : State) : (holdings s).Balanced ↔ BlocksConserved s ∧ ReserveKept s := by
  have hqueue : ((holdings s).entries.map (blocksFor ·.2)).sum = queueBlocks s := by
    simp [holdings, queueBlocks, Function.comp_def]
  have hring : ((holdings s).ring.map blocksFor).sum = ringBlocks s := by
    simp [holdings, ringBlocks, Function.comp_def]
  have hsubmit : (holdings s).submit.elim 0 (blocksFor ·.2) = reservedBlocks s := by
    unfold reservedBlocks holdings
    cases s.hp.submit <;> rfl
  have hfree : (holdings s).free = s.freeBlocks := rfl
  rw [Holdings.Balanced, Holdings.sendBlocks, hqueue, hring, hsubmit, hfree, BlocksConserved, ReserveKept]
  omega

theorem holdings_tags (s : State) : (holdings s).tags = heldTags s := by
  simp only [holdings, heldTags, Holdings.tags, List.map_map]
  cases s.hp.submit <;> rfl

theorem holdings_fits_iff (s : State) : (holdings s).Fits ↔ sharedCount s ≤ 32 ∧ s.re.ring.length ≤ 32 := by
  simp only [holdings, Holdings.Fits, sharedCount, List.length_map]
  cases s.hp.submit <;> simp

/-- Settles O55: on the holdings of the state, each way in which blocks change hands keeps the sum and the reserve. -/
theorem stepsConserveBlocks : Obligations.StepsConserveBlocks := by
  rintro s t ⟨hframed, hblocks, hreserve⟩ hstep
  obtain ⟨rest, hchange⟩ := change_of_step hstep
  refine ⟨hchange.submitFramed hframed, (holdings_balanced_iff t).mp ?_⟩
  exact (hchange.moved hframed).keeps (fun _ _ hmove => hmove.balanced) ((holdings_balanced_iff s).mpr ⟨hblocks, hreserve⟩)

theorem Change.tagsDistinct {s t : State} (h : Change s t) (hs : TagsDistinct s) : TagsDistinct t := by
  obtain ⟨hframed, hnodup⟩ := hs
  refine ⟨h.submitFramed hframed, ?_⟩
  rw [← holdings_tags] at hnodup ⊢
  exact (h.moved hframed).keeps (p := fun x => x.tags.Nodup) (fun _ _ hmove => hmove.nodup) hnodup

/-- Settles O57: on the holdings of the state, each way in which tags change hands keeps them distinct, and the one that
brings a new tag in has compared it with those held. -/
theorem stepsKeepTagsDistinct : Obligations.StepsKeepTagsDistinct := by
  intro s t hs hstep
  obtain ⟨rest, hchange⟩ := change_of_step hstep
  exact hchange.tagsDistinct hs

end Sys2Proof.Machine
end

section
/-! The silent states (chapter 05): a station senses, or it stands in OFFLINE or HALTED with every line-side block at its
first values; what falls asleep, what wakes up, and what is left alone meanwhile. -/

namespace Sys2Proof.Machine

/-! ### Hold-offs where sensing ends (R100) -/

theorem peerEntry_endSensing (s : State) (a : Nat) :
    peerEntry (endSensing s) a = PeerEntry.freeze s.li.time (peerEntry s a) := peerEntry_freezeHoldOffs s a

theorem peerEntry_halt (s : State) (a : Nat) : peerEntry (halt s) a = PeerEntry.freeze s.li.time (peerEntry s a) :=
  peerEntry_freezeHoldOffs (raise _ _ _ s) a

theorem peerEntry_enterOffline (s : State) {a : Nat} (h : a < 32) :
    peerEntry (enterOffline s) a = { PeerEntry.freeze s.li.time (peerEntry s a) with
      nextSend := (PeerEntry.freeze s.li.time (peerEntry s a)).nextSend
        + BitVec.ofNat 4 (s.te.queue.countP fun e => e.destination = .peer a ∧ e.sequence ≠ none) } := by
  have hflush := peerEntry_flushQueue (endSensing s) h
  rw [peerEntry_endSensing] at hflush
  exact hflush

theorem PeerEntry.freeze_not_running (now expiry : Nat) (p : PeerEntry) :
    (p.freeze now).holdOff ≠ some (.running expiry) := by
  unfold PeerEntry.freeze
  split <;> simp_all

/-- No hold-off has an expiry time. -/
def HoldOffsFrozen (s : State) : Prop := ∀ a expiry, (peerEntry s a).holdOff ≠ some (.running expiry)

theorem HoldOffsFrozen.of_eq {s t : State} (h : HoldOffsFrozen s)
    (ht : ∀ a < 32, (peerEntry t a).holdOff = (peerEntry s a).holdOff) : HoldOffsFrozen t := by
  intro a expiry
  by_cases ha : a < 32
  · rw [ht a ha]
    exact h a expiry
  · rw [peerEntry_outside t (not_lt.mp ha)]
    simp [PeerEntry.initial]

/-! ### Awake and asleep -/

/-- The station senses, and its state is not a silent one (R75). -/
def Awake (s : State) : Prop := s.li.sensing ≠ .off ∧ silentStation s.ac.station = false

/-- The station does not sense, and the blocks of the line are at their first values (R3, R34, R76, R100, R126). -/
structure Asleep (s : State) : Prop where
  sensing : s.li.sensing = .off
  station : silentStation s.ac.station = true
  tx : s.li.tx = none
  burst : s.li.burst = none
  timer : s.li.stuckTimer = 0
  fu : s.fu = FrameUnit.initial
  tracker : s.ac.tracker = RoundTracker.initial
  staging : s.re.staging = none
  holdOffs : HoldOffsFrozen s

theorem awake_or_asleep_iff (s : State) : SilenceSound s ∧ HoldOffsStopped s ↔ Awake s ∨ Asleep s := by
  constructor
  · rintro ⟨⟨⟨hstate, -⟩, hinitial⟩, hstopped⟩
    by_cases hoff : s.li.sensing = .off
    · obtain ⟨htx, hburst, htimer, hfu, htracker, hstaging⟩ := hinitial hoff
      exact .inr ⟨hoff, hstate.mp hoff, htx, hburst, htimer, hfu, htracker, hstaging, hstopped hoff⟩
    · exact .inl ⟨hoff, by simpa using mt hstate.mpr hoff⟩
  · rintro (⟨hsensing, hstation⟩ | h)
    · simp [SilenceSound, SensingMatchesState, OffIsInitial, HoldOffsStopped, hsensing, hstation]
    · exact ⟨⟨⟨iff_of_true h.sensing h.station, fun _ => driving_eq_false_iff.mpr h.tx⟩,
        fun _ => ⟨h.tx, h.burst, h.timer, h.fu, h.tracker, h.staging⟩⟩, fun _ => h.holdOffs⟩

theorem Asleep.of_eq {s t : State} (h : Asleep s) (hli : t.li = s.li) (hfu : t.fu = s.fu) (hac : t.ac = s.ac)
    (hstaging : t.re.staging = s.re.staging) (hpeers : ∀ a < 32, (peerEntry t a).holdOff = (peerEntry s a).holdOff) :
    Asleep t where
  sensing := by rw [hli, h.sensing]
  station := by rw [hac, h.station]
  tx := by rw [hli, h.tx]
  burst := by rw [hli, h.burst]
  timer := by rw [hli, h.timer]
  fu := by rw [hfu, h.fu]
  tracker := by rw [hac, h.tracker]
  staging := by rw [hstaging, h.staging]
  holdOffs := h.holdOffs.of_eq hpeers

theorem halt_asleep (s : State) : Asleep (halt s) where
  sensing := by simp
  station := by simp [silentStation]
  tx := by simp
  burst := by simp
  timer := by simp
  fu := by simp
  tracker := by simp
  staging := by simp
  holdOffs a expiry := by rw [peerEntry_halt]; exact PeerEntry.freeze_not_running _ _ _

theorem enterOffline_asleep (s : State) : Asleep (enterOffline s) where
  sensing := by simp
  station := by simp [silentStation]
  tx := by simp
  burst := by simp
  timer := by simp
  fu := by simp
  tracker := by simp
  staging := by simp
  holdOffs := by
    have hfrozen : HoldOffsFrozen (endSensing s) := fun a expiry => by
      rw [peerEntry_endSensing]
      exact PeerEntry.freeze_not_running _ _ _
    refine hfrozen.of_eq fun a ha => ?_
    rw [peerEntry_enterOffline s ha, peerEntry_endSensing]

theorem enterOffline_queue (s : State) : (enterOffline s).te.queue = [] := by
  have h := flushQueue_te (endSensing s)
  simp [enterOffline, h]

/-- The values of either reset are those of a station that does not sense (R87, R88). -/
theorem initialValues_asleep (setup : SetupRecord) (hp : HostPort) (s : State) : Asleep (initialValues setup hp s) where
  sensing := rfl
  station := rfl
  tx := rfl
  burst := rfl
  timer := rfl
  fu := rfl
  tracker := rfl
  staging := rfl
  holdOffs a expiry := by
    have hinitial : peerEntry (initialValues setup hp s) a = PeerEntry.initial := by
      by_cases ha : a < 32
      · simp [peerEntry, initialValues, State.reset, ha]
      · exact peerEntry_outside _ (not_lt.mp ha)
    rw [hinitial]
    simp [PeerEntry.initial]

/-! ### What leaves a station awake -/

/-- A station that senses goes on sensing, in its state or in RESYNC or ONLINE. -/
def StaysAwake (s t : State) : Prop :=
  (s.li.sensing ≠ .off → t.li.sensing ≠ .off) ∧
    (t.ac.station = s.ac.station ∨ t.ac.station = .resync ∨ t.ac.station = .online)

namespace StaysAwake

theorem of_eq {s t : State} (hli : t.li.sensing = s.li.sensing) (hac : t.ac.station = s.ac.station) : StaysAwake s t :=
  ⟨fun h => hli ▸ h, .inl hac⟩

theorem trans {s t u : State} (h : StaysAwake s t) (h' : StaysAwake t u) : StaysAwake s u := by
  refine ⟨fun hs => h'.1 (h.1 hs), ?_⟩
  obtain h2 | h2 := h'.2
  · rw [h2]
    exact h.2
  · exact .inr h2

theorem awake {s t : State} (h : StaysAwake s t) (hs : Awake s) : Awake t := by
  refine ⟨h.1 hs.1, ?_⟩
  obtain h2 | h2 | h2 := h.2
  · rw [h2, hs.2]
  · rw [h2]; rfl
  · rw [h2]; rfl

end StaysAwake

/-- A station falls asleep: it halts, or it leaves with its queue flushed (R71, R84, R85). -/
def FallsAsleep (s t : State) : Prop :=
  Asleep t ∧ (t.ac.station = .halted ∨ (t.ac.station = .offline ∧ s.ac.station = .leaving ∧ t.te.queue = []))

theorem halt_fallsAsleep (s u : State) : FallsAsleep s (halt u) := ⟨halt_asleep u, .inl (by simp)⟩

theorem AcWatches.station {s t : State} (h : AcWatches s t) : t.ac.station = s.ac.station :=
  ((orderKept_iff s t).mp h.order).1

theorem OrderKept.station {s t : State} (h : OrderKept s t) : t.ac.station = s.ac.station := ((orderKept_iff s t).mp h).1

theorem passReading_sensing (r : Reading) (s : State) : (passReading r s).li.sensing = s.li.sensing := by
  have hstep (r : Reading) (u : State) : (readingStep r u).li.sensing = u.li.sensing := by
    simp [readingStep, handReading, burstTo]
  have hheld : (passHeld s).li.sensing = s.li.sensing := by
    unfold passHeld
    split_ifs
    · rw [hstep]
      simp
    · rfl
  rw [passReading, hstep, hheld]

theorem quietEvent_staysAwake (s : State) : StaysAwake s (quietEvent s) := by
  refine ⟨?_, .inl (quietEvent_watches s).station⟩
  unfold quietEvent
  split
  · intro _
    simp only [burstEnd]
    split_ifs <;> simp [quietAtLi]
  · exact id

theorem finishTransmission_staysAwake (x : Transmission) (s : State) : StaysAwake s (finishTransmission x s) := by
  simp only [finishTransmission]
  split <;> exact .of_eq (by simp [burstTo]) (by simp [burstTo])

theorem echoPass_staysAwake (x : Transmission) (s : State) : StaysAwake s (echoPass x s) := by
  have hframe (r : FrameRequest) (u : State) : StaysAwake u (framePassed r u) := by
    refine .of_eq (by simp) ?_
    simp only [framePassed]
    repeat' split
    all_goals simp
  have hmark (u : State) : StaysAwake u (markPassed u) := by
    refine .of_eq (by simp) ?_
    unfold markPassed
    split_ifs <;> simp
  simp only [echoPass]
  split
  · exact (finishTransmission_staysAwake x s).trans (hmark _)
  · split
    · exact (finishTransmission_staysAwake x s).trans (hframe _ _)
    · exact finishTransmission_staysAwake x s
  · exact (finishTransmission_staysAwake x s).trans (.of_eq (by simp) (by simp))

/-- A collision leaves a station awake, or halts it (R59, R73). -/
theorem frameMismatch_awake (s : State) : StaysAwake s (frameMismatch s) ∨ ∃ u, frameMismatch s = halt u := by
  simp only [frameMismatch]
  split
  · exact .inl (.of_eq rfl rfl)
  · split_ifs
    · exact .inr ⟨_, rfl⟩
    all_goals
      refine .inl ?_
      split <;> exact .of_eq (by simp) (by simp)

theorem echoMismatch_awake (x : Transmission) (s : State) :
    StaysAwake s (echoMismatch x s) ∨ ∃ u, echoMismatch x s = halt u := by
  have hmarked : StaysAwake s (markPartial (releaseDriver s)) := .of_eq (by simp [markPartial]) (by simp [markPartial_ac])
  unfold echoMismatch mismatchAtOwner
  split
  · split_ifs
    · exact .inl (hmarked.trans (.of_eq (by simp) (withdrawClaim_orderKept _).station))
    · exact .inl hmarked
  · exact (frameMismatch_awake _).imp_left fun h => (hmarked.trans (.of_eq (by simp) (by simp))).trans h
  · exact .inl (hmarked.trans (.of_eq (by simp) (by simp)))

theorem claimSlot_sensing (k : Nat) (content : ClaimContent) (s : State) :
    (claimSlot k content s).li.sensing = s.li.sensing := by
  simp only [claimSlot]
  split_ifs <;> simp

theorem slotStart_staysAwake (k : Nat) (s : State) : StaysAwake s (slotStart k s) := by
  refine .of_eq ?_ (slotStart_orderKept k s).station
  simp only [slotStart]
  split
  · rw [claimSlot_sensing]
    simp [runTo]
  · simp [runTo]

theorem frameStart_awake (c : OwnClaim) (s : State) : StaysAwake s (frameStart c s) ∨ ∃ u, frameStart c s = halt u := by
  have hrun : StaysAwake s (runTo (c.markedAt + s.ac.setup.slot) s) := .of_eq (by simp [runTo]) (by simp [runTo])
  have hsent (u : State) : StaysAwake u (setProgress .sent u) := .of_eq (by simp) (by simp)
  simp only [frameStart]
  split
  · simp only [sendFrame]
    split_ifs
    · exact .inl ((hrun.trans (hsent _)).trans (.of_eq (by simp) (by simp)))
    · exact (frameMismatch_awake _).imp_left fun h => (hrun.trans (hsent _)).trans h
  · exact .inl hrun

theorem wakeIfNeeded_staysAwake (s : State) : StaysAwake s (wakeIfNeeded s) := by
  refine .of_eq ?_ (wakeIfNeeded_spec s).1.station
  simp only [wakeIfNeeded]
  split_ifs <;> simp

theorem endRound_staysAwake (s : State) : StaysAwake s (endRound s) := by
  have hrun : StaysAwake s (runTo (roundEndTime s) s) := .of_eq (by simp [runTo]) (by simp [runTo])
  simp only [endRound]
  split_ifs
  · exact hrun.trans (.of_eq (by simp) (by simp))
  · exact (hrun.trans (.of_eq (by simp) (by simp))).trans (wakeIfNeeded_staysAwake (onTracker _ _))

theorem concludeRest_staysAwake (s : State) : StaysAwake s (concludeRest s) := by
  have hrest : StaysAwake s (setStation .resync (onTracker (fun t => { t with phase := .rest, unclaimed := 8 })
      (passTime (restDetectInterval s - s.ac.tracker.restDetect) s))) := ⟨fun h => by simpa using h, .inr (.inl (by simp))⟩
  exact hrest.trans (wakeIfNeeded_staysAwake _)

theorem expireHoldOff_staysAwake (a expiry : Nat) (s : State) : StaysAwake s (expireHoldOff a expiry s) :=
  StaysAwake.trans (.of_eq (by simp [runTo]) (by simp [runTo])) (wakeIfNeeded_staysAwake (updatePeer a _ (runTo expiry s)))

theorem AccessTaken.awake {s t : State} (h : AccessTaken s t) : StaysAwake s t ∨ FallsAsleep s t := by
  cases h with
  | kept => exact .inl (.of_eq rfl rfl)
  | halted => exact .inr (halt_fallsAsleep s s)
  | left h => exact .inr ⟨enterOffline_asleep s, .inr ⟨by simp, h, enterOffline_queue s⟩⟩
  | resync => exact .inl ⟨fun h => by simpa using h, .inr (.inl (by simp))⟩
  | rotated => exact .inl (.of_eq (by simp) (by simp))
  | reset => exact .inl (.of_eq (by simp) (by simp))
  | repaired => exact .inl ⟨fun h => by simpa using h, .inr (.inr (by simp))⟩
  | diverged => exact .inl ⟨fun h => by simpa using h, .inr (.inl (by simp))⟩
  | applied => exact .inl ⟨fun h => by simpa using h, .inr (.inr (by simp))⟩
  | otherRoster => exact .inl (.of_eq (by simp) (by simp))
  | otherRosterResync => exact .inl ⟨fun h => by simpa using h, .inr (.inl (by simp))⟩

/-- A station that has fallen asleep at an access end starts no round (R45). -/
theorem accessEnd_of_silent {m : Nat} {s : State} (h : silentStation (accessEndAtAc (takeOutcome s)).ac.station = true) :
    accessEnd m s = accessEndAtAc (takeOutcome s) := by
  simp only [accessEnd]
  split <;> simp_all [silentStation]

theorem accessEnd_awake (m : Nat) (s : State) : StaysAwake s (accessEnd m s) ∨ FallsAsleep s (accessEnd m s) := by
  obtain ⟨hli, -, -, -, -, -, -, hstation, -⟩ := accessEnd_keeps m s
  have htaken : StaysAwake s (takeOutcome s) := .of_eq (by simp) (by simp)
  obtain h | ⟨hasleep, hwhy⟩ := (accessEndAtAc_taken (takeOutcome s)).awake
  · exact .inl ((htaken.trans h).trans (.of_eq (by rw [hli]) hstation))
  · rw [accessEnd_of_silent hasleep.station]
    exact .inr ⟨hasleep, by simpa using hwhy⟩

theorem declareStuck_awake (s : State) : StaysAwake s (declareStuck s) ∨ FallsAsleep s (declareStuck s) := by
  have hstation (u : State) : StaysAwake u (stationAtStuck u) ∨ (u.ac.station = .leaving ∧ stationAtStuck u = enterOffline u) := by
    unfold stationAtStuck
    split
    · exact .inl ⟨fun h => by simpa using h, .inr (.inl (by simp))⟩
    case h_2 h => exact .inr ⟨h, rfl⟩
    all_goals exact .inl (.of_eq rfl rfl)
  have hbefore : StaysAwake s (onAccess (fun _ => AccessRecord.empty) (stuckNotices
      (onLi (fun l => { l with sensing := .stuck }) (passTime (stuckLimit - s.li.stuckTimer) s)))) :=
    ⟨fun _ => by simp, .inl (by simp)⟩
  obtain h | ⟨hleaving, h⟩ := hstation (onAccess (fun _ => AccessRecord.empty) (stuckNotices
      (onLi (fun l => { l with sensing := .stuck }) (passTime (stuckLimit - s.li.stuckTimer) s))))
  · exact .inl (hbefore.trans h)
  · simp only [declareStuck]
    rw [h]
    exact .inr ⟨enterOffline_asleep _, .inr ⟨by simp, by simpa using hleaving, enterOffline_queue _⟩⟩

/-! ### The events of the line -/

/-- While the station does not sense, the line brings it nothing but the level of the pair (R3; log 9). -/
theorem LineChange.of_asleep {s t : State} (h : LineChange s t) (hs : Asleep s) :
    ∃ x, t = onLi (fun l => { l with lineDriven := x }) s := by
  have hlevel : s = onLi (fun l => { l with lineDriven := s.li.lineDriven }) s := rfl
  have hsensing := hs.sensing
  have hno_reading : passesReadings s = false := by simp [passesReadings, hs.burst]
  have hno_claim : s.ac.tracker.access.claim = none := by rw [hs.tracker]; rfl
  cases h with
  | time n =>
    refine ⟨s.li.lineDriven, ?_⟩
    rw [passTime, hsensing]
    exact hlevel
  | level x => exact ⟨x, rfl⟩
  | reading r h | held h => simp [hno_reading] at h
  | answer h =>
    rw [hs.fu] at h
    simp [FrameUnit.initial] at h
  | echoPass h | echoMismatch n h => simp [hs.tx] at h
  | frameStart h => simp [hno_claim] at h
  | restDetected hstation =>
    have hsilent := hs.station
    simp [hstation, silentStation] at hsilent
  | holdOffExpired h => exact absurd hsensing h
  | active n h | candidate h | quiet hu h | free hu h | slotStart k hround h | roundEnd h | guardComplete n h | stuck h =>
    simp [hsensing] at h

/-- An event of the line leaves a station awake, or it falls asleep. -/
theorem LineChange.awake {s t : State} (h : LineChange s t) (hs : Awake s) : StaysAwake s t ∨ FallsAsleep s t := by
  have hpass (n : Nat) : StaysAwake s (passTime n s) := .of_eq (by simp) (by simp)
  have hpassed {u : State} (hu : u = s ∨ ∃ n, u = passTime n s) : StaysAwake s u := by
    obtain rfl | ⟨n, rfl⟩ := hu
    · exact .of_eq rfl rfl
    · exact hpass n
  have hhalt {u : State} (h : ∃ v, u = halt v) : FallsAsleep s u := by
    obtain ⟨v, rfl⟩ := h
    exact halt_fallsAsleep s v
  cases h with
  | time n => exact .inl (hpass n)
  | level x => exact .inl (.of_eq rfl rfl)
  | active n =>
    refine .inl ⟨fun _ => by simp [activeEvent, beginBurst], .inl ?_⟩
    exact ((passTime_watches n s).trans (activeEvent_watches _)).station
  | candidate => exact .inl (.of_eq (by simp [candidateStep, burstTo]) (candidateStep_watches _ s).station)
  | reading r => exact .inl (.of_eq (passReading_sensing r s) (passReading_watches r s).station)
  | held => exact .inl (.of_eq (by simp) (by simp))
  | quiet hu => exact .inl ((hpassed hu).trans (quietEvent_staysAwake _))
  | free hu => exact .inl (((hpassed hu).trans (.of_eq (by simp) (by simp))).trans
      (quietEvent_staysAwake (raise .lineFree none none _)))
  | @answer a due =>
    refine .inl ((hpass (due - s.li.time)).trans (.of_eq ?_ (congrArg (·.station) (sendAnswer_frame a (runTo due s)).1)))
    unfold sendAnswer
    split_ifs <;> simp [runTo]
  | echoPass => exact .inl (echoPass_staysAwake _ s)
  | echoMismatch n => exact (echoMismatch_awake _ _).imp (hpass n).trans hhalt
  | slotStart k => exact .inl (slotStart_staysAwake k s)
  | frameStart => exact (frameStart_awake _ s).imp_right hhalt
  | roundEnd => exact .inl (endRound_staysAwake s)
  | restDetected => exact .inl (concludeRest_staysAwake s)
  | holdOffExpired => exact .inl (expireHoldOff_staysAwake _ _ s)
  | guardComplete n =>
    refine (accessEnd_awake _ _).imp (hpass _).trans fun h => ⟨h.1, ?_⟩
    simpa [completeGuard] using h.2
  | stuck => exact declareStuck_awake s

end Sys2Proof.Machine
end

section
/-! The silent states over every step (chapter 05): what the host's commands do to a station that senses and to one that
does not, the transmit queue in OFFLINE, and the hold of a hard reset. -/

namespace Sys2Proof.Machine

/-! ### The host's commands and the line -/

theorem beginSensing_awake (s : State) : (beginSensing s).li.sensing ≠ .off ∧
    (beginSensing s).ac.station = s.ac.station ∧ (beginSensing s).re = s.re := by
  simp only [beginSensing]
  split_ifs <;> simp [activeAtAc]

theorem joinLine_awake (s : State) : Awake (joinLine s) ∧ (joinLine s).ac.station = .listening := by
  obtain ⟨hsensing, hstation, -⟩ := beginSensing_awake (setStaging none (onFu (fun _ => FrameUnit.initial)
    (onPeers (fun _ => Vector.replicate 32 PeerEntry.initial) (onAc (fun a => { a with
      order := ascending a.setup.roster, restartPending := true, collisions := 0,
      tracker := RoundTracker.initial, station := .listening }) s))))
  have hlistening : (joinLine s).ac.station = .listening := hstation
  exact ⟨⟨hsensing, by rw [hlistening]; rfl⟩, hlistening⟩

/-- A LEAVE takes the station to LEAVING, or to OFFLINE, or leaves it in OFFLINE or LEAVING (R81). -/
theorem leaveLine_cases (s : State) :
    (leaveLine s = s ∧ (s.ac.station = .leaving ∨ s.ac.station = .offline)) ∨
      (leaveLine s = setStation .leaving s ∧ silentStation s.ac.station = false) ∨ leaveLine s = enterOffline s := by
  unfold leaveLine
  split
  case h_4 h => exact .inl ⟨rfl, .inl h⟩
  case h_5 => exact .inr (.inr rfl)
  case h_6 h => exact .inl ⟨rfl, .inr h⟩
  all_goals
    rename_i h
    split_ifs
    · exact .inr (.inl ⟨rfl, by rw [h]; rfl⟩)
    · exact .inr (.inr rfl)

/-- An entry that finishes leaves every hold-off. -/
theorem finishEntry_holdOff (tag : Tag) (outcome : MessageOutcome) (note : Bool) (s : State) :
    ∀ a < 32, (peerEntry (finishEntry tag outcome note s) a).holdOff = (peerEntry s a).holdOff := by
  intro a ha
  cases hfound : findEntry s tag with
  | none => rw [finishEntry_absent hfound]
  | some e =>
    obtain ⟨-, -, hpeers⟩ := finishEntry_found hfound outcome note
    rw [peerEntry_congr hpeers, peerEntry_advanceSequence e s ha]

/-- What a decision does to a station that does not sense: nothing, or it joins, or it leaves (R79, R81). -/
theorem Decision.of_asleep {c : Command} {s t : State} (h : Decision c s t) (hs : Asleep s) :
    (Asleep t ∧ t.ac.station = s.ac.station) ∨ (Awake t ∧ t.ac.station = .listening ∧ s.ac.station = .offline) ∨
      t = enterOffline s := by
  have kept (hli : t.li = s.li) (hfu : t.fu = s.fu) (hac : t.ac = s.ac) (hre : t.re.staging = s.re.staging)
      (hpeers : ∀ a < 32, (peerEntry t a).holdOff = (peerEntry s a).holdOff) :
      (Asleep t ∧ t.ac.station = s.ac.station) ∨ (Awake t ∧ t.ac.station = .listening ∧ s.ac.station = .offline) ∨
        t = enterOffline s := .inl ⟨hs.of_eq hli hfu hac hre hpeers, by rw [hac]⟩
  cases h with
  | reply => exact kept rfl rfl rfl rfl fun _ _ => rfl
  | setup r => exact .inl ⟨⟨hs.sensing, hs.station, hs.tx, hs.burst, hs.timer, hs.fu, hs.tracker, hs.staging, hs.holdOffs⟩, rfl⟩
  | join h => exact .inr (.inl ⟨(joinLine_awake s).1, (joinLine_awake s).2, h⟩)
  | leave =>
    obtain ⟨h, -⟩ | ⟨-, h⟩ | h := leaveLine_cases s
    · rw [h]
      exact .inl ⟨hs, rfl⟩
    · exact absurd hs.station (by simp [h])
    · exact .inr (.inr h)
  | submit o => exact kept rfl rfl rfl rfl fun _ _ => rfl
  | cancelWaiting => exact kept (by simp) (by simp) (by simp) (by simp) (finishEntry_holdOff _ _ _ s)
  | cancelInFlight tag => exact kept rfl rfl rfl rfl fun _ _ => rfl
  | gate a setting =>
    refine kept (by simp) (by simp) (by simp) (by simp) fun x hx => ?_
    by_cases hxa : x = a
    · subst hxa
      simp [hx]
    · rw [peerEntry_updatePeer_other _ _ hxa]
  | release => exact kept rfl rfl rfl rfl fun _ _ => rfl
  | mask m => exact kept rfl rfl rfl rfl fun _ _ => rfl

/-- What a decision does to a station that senses: nothing, or it leaves (R81). -/
theorem Decision.of_awake {c : Command} {s t : State} (h : Decision c s t) (hs : Awake s) :
    (Awake t ∧ (t.ac.station = s.ac.station ∨ t.ac.station = .leaving)) ∨ t = enterOffline s := by
  have kept (hli : t.li.sensing = s.li.sensing) (hac : t.ac.station = s.ac.station) :
      (Awake t ∧ (t.ac.station = s.ac.station ∨ t.ac.station = .leaving)) ∨ t = enterOffline s :=
    .inl ⟨⟨by rw [hli]; exact hs.1, by rw [hac]; exact hs.2⟩, .inl hac⟩
  have not_offline : s.ac.station ≠ .offline := by
    intro hoff
    have hawake := hs.2
    simp [hoff, silentStation] at hawake
  cases h with
  | setup r => exact kept rfl rfl
  | join h => exact absurd h not_offline
  | leave =>
    obtain ⟨h, -⟩ | ⟨h, -⟩ | h := leaveLine_cases s
    · rw [h]
      exact .inl ⟨hs, .inl rfl⟩
    · rw [h]
      exact .inl ⟨⟨by simpa using hs.1, by simp [silentStation]⟩, .inr (by simp)⟩
    · exact .inr h
  | _ => exact kept (by simp) (by simp)

/-- An open SUBMIT that joins a queue, or gives it up, in a station that does not sense: no need to send arises (R47). -/
theorem endSubmit_of_asleep (o : OpenSubmit) {s : State} (hs : Asleep s) :
    (endSubmit o s).li = s.li ∧ (endSubmit o s).ac = s.ac := by
  have hrest : s.ac.tracker.phase ≠ .rest := by
    rw [hs.tracker]
    simp [RoundTracker.initial]
  simp only [endSubmit]
  split_ifs
  · rw [(wakeIfNeeded_spec _).2.2.2.2.1 (.inl (by simpa using hrest))]
    exact ⟨rfl, rfl⟩
  · exact ⟨rfl, rfl⟩

theorem endSubmit_staysAwake (o : OpenSubmit) (s : State) : StaysAwake s (endSubmit o s) := by
  simp only [endSubmit]
  split_ifs
  · exact StaysAwake.trans (.of_eq (by simp) (by simp)) (wakeIfNeeded_staysAwake (onTe _ _))
  · exact .of_eq (by simp) (by simp)

theorem endSubmit_station (o : OpenSubmit) (s : State) : (endSubmit o s).ac.station = s.ac.station := by
  simp only [endSubmit]
  split_ifs
  · exact (wakeIfNeeded_spec _).1.station
  · rfl

/-! ### What the host's side does to a station -/

/-- The messages and the station in OFFLINE and LEAVING: no entry waits in OFFLINE, and no SUBMIT is open in either
(R76, R84, R123). -/
def LeavingClear (s : State) : Prop :=
  (s.ac.station = .offline → s.te.queue = []) ∧ (s.ac.station = .offline ∨ s.ac.station = .leaving → s.hp.submit = none)

theorem LeavingClear.of_empty {s : State} (hq : s.te.queue = []) (hsubmit : s.hp.submit = none) : LeavingClear s :=
  ⟨fun _ => hq, fun _ => hsubmit⟩

theorem LeavingClear.of_eq {s t : State} (h : LeavingClear s) (hac : t.ac.station = s.ac.station)
    (hq : s.te.queue = [] → t.te.queue = []) (hsubmit : s.hp.submit = none → t.hp.submit = none) : LeavingClear t :=
  ⟨fun hoff => hq (h.1 (hac ▸ hoff)), fun hleft => hsubmit (h.2 (hac ▸ hleft))⟩

theorem finishEntry_queue_nil {tag : Tag} {outcome : MessageOutcome} {note : Bool} {s : State} (h : s.te.queue = []) :
    (finishEntry tag outcome note s).te.queue = [] := by
  rw [finishEntry_absent (by simp [findEntry, h])]
  exact h

theorem Decision.leavingClear {c : Command} {s t : State} (h : Decision c s t) (hs : LeavingClear s)
    (hnone : s.hp.submit = none) : LeavingClear t := by
  cases h with
  | join => exact ⟨fun h => by simp [(joinLine_awake s).2] at h, fun _ => by simpa using hnone⟩
  | leave h =>
    obtain ⟨hleft, -⟩ | ⟨hleft, -⟩ | hleft := leaveLine_cases s
    · rwa [hleft]
    · rw [hleft]
      exact ⟨fun h => by simp at h, fun _ => by simpa using hnone⟩
    · rw [hleft]
      exact .of_empty (enterOffline_queue s) (by simpa using hnone)
  | submit o h =>
    obtain ⟨-, -, -, -, htakes⟩ := submitReply_ok h
    have hstation : s.ac.station ≠ .offline ∧ s.ac.station ≠ .leaving := by
      constructor <;> intro h <;> simp [h, StationState.takesSubmit] at htakes
    exact ⟨fun h => absurd h hstation.1, fun h => h.elim (absurd · hstation.1) (absurd · hstation.2)⟩
  | cancelWaiting => exact hs.of_eq (by simp) finishEntry_queue_nil (by simp)
  | _ => exact hs.of_eq (by simp) (fun h => by simp [h]) (by simp)

/-- A station stands awake or asleep after everything the host's side does. -/
theorem HostChange.awake_or_asleep {s t : State} (h : HostChange s t) (hs : Awake s ∨ Asleep s) : Awake t ∨ Asleep t := by
  have kept {u v : State} (hu : Awake u ∨ Asleep u) (hli : v.li = u.li) (hfu : v.fu = u.fu) (hac : v.ac = u.ac)
      (hre : v.re.staging = u.re.staging) (hpeers : v.peers = u.peers) : Awake v ∨ Asleep v :=
    hu.imp (fun h => ⟨by rw [hli]; exact h.1, by rw [hac]; exact h.2⟩)
      fun h => h.of_eq hli hfu hac hre fun a _ => by rw [peerEntry_congr hpeers]
  cases h with
  | @decided c u t r data hu ht =>
    obtain ⟨hli, hfu, hac, hpeers, -, hre, -⟩ := hu.frame
    have hbefore := kept (v := u) hs hli hfu hac (by rw [hre]) hpeers
    refine kept (u := t) ?_ rfl rfl rfl rfl rfl
    obtain hawake | hasleep := hbefore
    · obtain ⟨h, -⟩ | h := ht.of_awake hawake
      · exact .inl h
      · exact .inr (h ▸ enterOffline_asleep _)
    · obtain ⟨h, -⟩ | ⟨h, -, -⟩ | h := ht.of_asleep hasleep
      · exact .inr h
      · exact .inl h
      · exact .inr (h ▸ enterOffline_asleep _)
  | @submitted o =>
    refine kept (v := closeTransaction _) ?_ rfl rfl rfl rfl rfl
    obtain hawake | hasleep := hs
    · exact .inl ((endSubmit_staysAwake o s).awake hawake)
    · obtain ⟨hli, hac⟩ := endSubmit_of_asleep o hasleep
      exact .inr (hasleep.of_eq hli (by simp) hac (by simp) fun a _ => by rw [peerEntry_congr (s := s) (by simp)])
  | restarted => exact .inr ((initialValues_asleep _ _ s).of_eq rfl rfl rfl rfl fun _ _ => rfl)
  | hardReset => exact .inr ((initialValues_asleep SetupRecord.initial s.hp s).of_eq rfl rfl rfl rfl fun _ _ => rfl)
  | _ => exact kept hs (by simp) (by simp) (by simp) (by simp) (by simp)

theorem HostChange.leavingClear {s t : State} (h : HostChange s t) (hframed : SubmitFramed s) (hs : LeavingClear s) :
    LeavingClear t := by
  cases h with
  | @decided c u t r data hu ht =>
    obtain ⟨-, hsubmit, -, -, -⟩ := hu.keeps
    obtain ⟨-, -, hac, -, hte, -⟩ := hu.frame
    have hbefore := hs.of_eq (t := u) (by rw [hac]) (fun h => by rw [hte]; exact h) (fun h => by rw [hsubmit]; exact h)
    exact (ht.leavingClear hbefore (hu.submit_none hframed)).of_eq rfl id id
  | payload b =>
    refine hs.of_eq (by simp) (fun h => by simpa using h) fun h => ?_
    simp [clockStream, h]
  | selLow =>
    refine hs.of_eq (by simp) (fun h => by simpa using h) fun h => ?_
    unfold beginTransaction
    split_ifs <;> simpa using h
  | @submitted o h ho =>
    have hstation : ¬(s.ac.station = .offline ∨ s.ac.station = .leaving) := fun h => by simp [hs.2 h] at ho
    have hkept : (closeTransaction (endSubmit o s)).ac.station = s.ac.station := endSubmit_station o s
    exact ⟨fun h => absurd (.inl (hkept ▸ h)) hstation, fun h => absurd (hkept ▸ h) hstation⟩
  | restarted => exact .of_empty rfl rfl
  | hardReset =>
    refine .of_empty rfl ?_
    simp only [hardResetState]
    split_ifs <;> rfl
  | hardResetEnd => exact hs
  | _ => exact hs.of_eq (by simp) (fun h => by simpa using h) (by simp [clockStream, HostPort.between])

theorem Decision.resetHeld {c : Command} {s t : State} (h : Decision c s t) : t.resetHeld = s.resetHeld := by
  cases h <;> simp

/-- A held reset takes no transaction: it drops the one in progress, and each further one (R87, R159). -/
theorem HostChange.resetHolds {s t : State} (h : HostChange s t) (hs : ResetHolds s) : ResetHolds t := by
  have not_held (h : s.hp.transaction ≠ .idle ∧ s.hp.transaction ≠ .dropped) (ht : t.resetHeld = s.resetHeld) :
      ResetHolds t := fun hheld => ((hs (ht ▸ hheld)).2.elim h.1 h.2).elim
  have idle (hac : t.ac.station = s.ac.station) (hidle : t.hp.transaction = .idle) (ht : t.resetHeld = s.resetHeld) :
      ResetHolds t := fun hheld => ⟨hac.trans (hs (ht ▸ hheld)).1, .inl hidle⟩
  cases h with
  | decided r data hu ht =>
    obtain ⟨-, -, -, -, htransaction⟩ := hu.keeps
    obtain ⟨-, -, -, -, -, -, -, -, hheld⟩ := hu.frame
    refine not_held ?_ (ht.resetHeld.trans hheld)
    obtain h | h := htransaction <;> simp [h]
  | unknown h => exact not_held (by simp [h]) rfl
  | opened c h => exact not_held (by simp [h]) rfl
  | parameter b h => exact not_held (by simp [h]) rfl
  | clocked h => exact not_held (by simp [h]) rfl
  | payload b h => exact not_held (by simp [h]) rfl
  | ignored h => exact hs
  | selLow h =>
    intro hheld
    have hbefore : s.resetHeld = true := by simpa using hheld
    refine ⟨by simpa using (hs hbefore).1, .inr ?_⟩
    simp [beginTransaction, hbefore]
  | closed h => exact idle rfl rfl rfl
  | submitted h ho => exact not_held (by simp [h]) (by simp)
  | completionTaken h => exact idle rfl rfl rfl
  | noticeTaken h => exact idle rfl rfl rfl
  | restarted => exact fun _ => ⟨rfl, .inl rfl⟩
  | hardReset =>
    refine fun _ => ⟨rfl, ?_⟩
    simp only [hardResetState]
    split_ifs
    · exact .inl rfl
    · exact .inr rfl
  | hardResetEnd => exact fun h => by simp at h

/-! ### The law (R75, R76, R84, R86, R87, R100, R123) -/

/-- What the law says of one moment: the station is awake or asleep, and OFFLINE and LEAVING are clear. -/
structure Silence (s : State) : Prop where
  framed : SubmitFramed s
  state : Awake s ∨ Asleep s
  clear : LeavingClear s
  held : ResetHolds s

theorem silence_iff (s : State) :
    SilenceSound s ∧ HoldOffsStopped s ∧ OfflineQueueEmpty s ∧ ResetHolds s ↔ Silence s := by
  constructor
  · rintro ⟨hsilence, hstopped, ⟨hframed, hclear⟩, hheld⟩
    exact ⟨hframed, (awake_or_asleep_iff s).mp ⟨hsilence, hstopped⟩, hclear, hheld⟩
  · rintro ⟨hframed, hstate, hclear, hheld⟩
    obtain ⟨hsilence, hstopped⟩ := (awake_or_asleep_iff s).mpr hstate
    exact ⟨hsilence, hstopped, ⟨hframed, hclear⟩, hheld⟩

theorem LineChange.resetHeld {s t : State} (h : LineChange s t) : t.resetHeld = s.resetHeld := by
  have hpass {u : State} (hu : u = s ∨ ∃ n, u = passTime n s) : u.resetHeld = s.resetHeld := by
    obtain rfl | ⟨n, rfl⟩ := hu <;> simp
  cases h with
  | quiet hu => simpa using hpass hu
  | free hu => simpa using hpass hu
  | _ => simp

theorem Awake.not_offline {s : State} (h : Awake s) : s.ac.station ≠ .offline := by
  intro hoff
  have hawake := h.2
  simp [hoff, silentStation] at hawake

theorem LineChange.silence {s t : State} (h : LineChange s t) (hs : Silence s) : Silence t := by
  have hframed : SubmitFramed t := (Change.line h).submitFramed hs.framed
  obtain hawake | hasleep := hs.state
  · have not_held : ResetHolds t := fun hheld => absurd (hs.held (h.resetHeld ▸ hheld)).1 hawake.not_offline
    obtain hstays | ⟨hasleep, hwhy⟩ := h.awake hawake
    · have hnext := hstays.awake hawake
      refine ⟨hframed, .inl hnext, ⟨fun hoff => absurd hoff hnext.not_offline, fun hleft => ?_⟩, not_held⟩
      rw [h.hp]
      refine hs.clear.2 ?_
      obtain hstation | hstation | hstation := hstays.2
      · rwa [hstation] at hleft
      · simp [hstation] at hleft
      · simp [hstation] at hleft
    · refine ⟨hframed, .inr hasleep, ?_, not_held⟩
      obtain hhalted | ⟨hoff, hleaving, hempty⟩ := hwhy
      · exact ⟨fun h => by simp [hhalted] at h, fun h => by simp [hhalted] at h⟩
      · refine .of_empty hempty ?_
        rw [h.hp]
        exact hs.clear.2 (.inr hleaving)
  · obtain ⟨x, rfl⟩ := h.of_asleep hasleep
    refine ⟨hframed, .inr ?_, hs.clear, hs.held⟩
    exact ⟨hasleep.sensing, hasleep.station, hasleep.tx, hasleep.burst, hasleep.timer, hasleep.fu, hasleep.tracker,
      hasleep.staging, hasleep.holdOffs⟩

theorem Change.silence {s t : State} (h : Change s t) (hs : Silence s) : Silence t := by
  cases h with
  | nothing => exact hs
  | host h => exact ⟨h.submitFramed hs.framed, h.awake_or_asleep hs.state, h.leavingClear hs.framed hs.clear,
      h.resetHolds hs.held⟩
  | line h => exact h.silence hs

/-- Settles O59: a station that senses stays awake or falls asleep with everything at its first values, and to one asleep
the line brings only its level; the host wakes it by JOIN alone. -/
theorem stepsKeepSilence : Obligations.StepsKeepSilence := by
  intro s t hs hstep
  obtain ⟨rest, hchange⟩ := change_of_step hstep
  have hbefore : Silence { s with pending := rest } := (silence_iff _).mp hs
  exact (silence_iff t).mpr (hchange.silence hbefore)

end Sys2Proof.Machine
end

section
/-! The entry in flight (chapter 07): it is the content of the own claim that holds the access, and it is back in the queue,
or gone, wherever that claim ends. -/

namespace Sys2Proof.Machine

/-! ### Entries in flight -/

/-- No entry is IN-FLIGHT. -/
def Grounded (s : State) : Prop := ∀ e ∈ s.te.queue, e.state ≠ .inFlight

/-- Every entry that is IN-FLIGHT in `t` was so in `s`, under its tag. -/
def NoneLaunched (s t : State) : Prop :=
  ∀ e ∈ t.te.queue, e.state = .inFlight → ∃ e₀ ∈ s.te.queue, e₀.tag = e.tag ∧ e₀.state = .inFlight

theorem NoneLaunched.of_te {s t : State} (h : t.te.queue = s.te.queue) : NoneLaunched s t := by
  rw [NoneLaunched, h]
  exact fun e he hflying => ⟨e, he, rfl, hflying⟩

theorem Grounded.of_noneLaunched {s t : State} (h : Grounded s) (ht : NoneLaunched s t) : Grounded t := by
  intro e he hflying
  obtain ⟨e₀, he₀, -, hflying₀⟩ := ht e he hflying
  exact h e₀ he₀ hflying₀

theorem Grounded.of_empty {s : State} (h : s.te.queue = []) : Grounded s := by
  simp [Grounded, h]

theorem Grounded.inFlightClaimed {s : State} (h : Grounded s) : InFlightClaimed s := fun e he hflying => absurd hflying (h e he)

/-- Without a claim that holds the access no entry is IN-FLIGHT. -/
theorem InFlightClaimed.grounded {s : State} (h : InFlightClaimed s) (hopen : claimOpen s = false) : Grounded s := by
  intro e he hflying
  simp [(h e he hflying).1] at hopen

theorem claimOpen_congr {s t : State} (h : t.ac.tracker.access.claim = s.ac.tracker.access.claim) :
    claimOpen t = claimOpen s := by
  simp [claimOpen, claimUnsettled, claimProgress, h]

theorem claimContent_congr {s t : State} (h : t.ac.tracker.access.claim = s.ac.tracker.access.claim) :
    claimContent t = claimContent s := by
  simp [claimContent, h]

theorem InFlightClaimed.of_kept {s t : State} (h : InFlightClaimed s) (hq : NoneLaunched s t)
    (hclaim : t.ac.tracker.access.claim = s.ac.tracker.access.claim) : InFlightClaimed t := by
  intro e he hflying
  obtain ⟨e₀, he₀, htag, hflying₀⟩ := hq e he hflying
  rw [claimOpen_congr hclaim, claimContent_congr hclaim, ← htag]
  exact h e₀ he₀ hflying₀

/-- The claim goes on under a progress that holds the access. -/
theorem InFlightClaimed.of_progress {s t : State} (h : InFlightClaimed s) (hq : NoneLaunched s t) {p : Progress}
    (hp : p = .held ∨ p = .sent ∨ p = .passed)
    (hclaim : t.ac.tracker.access.claim = s.ac.tracker.access.claim.map fun c => { c with progress := p }) :
    InFlightClaimed t := by
  intro e he hflying
  obtain ⟨e₀, he₀, htag, hflying₀⟩ := hq e he hflying
  obtain ⟨hopen, hcontent⟩ := h e₀ he₀ hflying₀
  cases hs : s.ac.tracker.access.claim with
  | none => simp [claimContent, hs] at hcontent
  | some c =>
    rw [hs] at hclaim
    refine ⟨?_, by simpa [claimContent, hs, hclaim, htag] using hcontent⟩
    obtain rfl | rfl | rfl := hp <;> simp [claimOpen, claimUnsettled, claimProgress, hclaim]

/-- A change of the entries that takes none off. -/
theorem updateEntry_noneLaunched (tag : Tag) (f : TxEntry → TxEntry) (s : State)
    (hf : ∀ e, (f e).tag = e.tag ∧ ((f e).state = .inFlight → e.state = .inFlight) := by exact fun _ => ⟨rfl, id⟩) :
    NoneLaunched s (updateEntry tag f s) := by
  intro e he hflying
  simp only [updateEntry_te, List.mem_map] at he
  obtain ⟨e₀, he₀, rfl⟩ := he
  split_ifs at hflying ⊢
  · exact ⟨e₀, he₀, (hf e₀).1.symm, (hf e₀).2 hflying⟩
  · exact ⟨e₀, he₀, rfl, hflying⟩

theorem finishEntry_noneLaunched (tag : Tag) (outcome : MessageOutcome) (note : Bool) (s : State) :
    NoneLaunched s (finishEntry tag outcome note s) := by
  cases hfound : findEntry s tag with
  | none => rw [finishEntry_absent hfound]; exact .of_te rfl
  | some e =>
    obtain ⟨hte, -, -⟩ := finishEntry_found hfound outcome note
    intro x hx hflying
    rw [hte] at hx
    exact ⟨x, List.mem_of_mem_eraseP hx, rfl, hflying⟩

/-! ### Attempts that end -/

/-- Tags of the queue are distinct. -/
abbrev QueueTagsDistinct (s : State) : Prop := (s.te.queue.map (·.tag)).Nodup

theorem TagsDistinct.queue {s : State} (h : TagsDistinct s) : QueueTagsDistinct s := by
  have hnodup := h.2
  rw [heldTags, List.append_assoc] at hnodup
  exact (List.nodup_append.mp hnodup).1

/-- Only the entry with the tag may be IN-FLIGHT. -/
def OnlyFlies (tag : Tag) (s : State) : Prop := ∀ e ∈ s.te.queue, e.state = .inFlight → e.tag = tag

theorem InFlightClaimed.onlyFlies {s : State} (h : InFlightClaimed s) {c : OwnClaim} {tag : Tag}
    (hc : s.ac.tracker.access.claim = some c) (hcontent : c.content = .entry tag) : OnlyFlies tag s := by
  intro e he hflying
  have hclaimed := (h e he hflying).2
  simpa [claimContent, hc, hcontent] using hclaimed.symm

theorem InFlightClaimed.grounded_of_content {s : State} (h : InFlightClaimed s)
    (hcontent : ∀ tag, claimContent s ≠ some (.entry tag)) : Grounded s :=
  fun e he hflying => hcontent e.tag (h e he hflying).2

/-- The one entry that may fly is gone once it finishes. -/
theorem finishEntry_grounded {tag : Tag} {s : State} (hd : QueueTagsDistinct s) (hfly : OnlyFlies tag s)
    {e : TxEntry} (hfound : findEntry s tag = some e) (outcome : MessageOutcome) (note : Bool) :
    Grounded (finishEntry tag outcome note s) := by
  obtain ⟨hte, -, -⟩ := finishEntry_found hfound outcome note
  obtain ⟨front, rest, hq, herase⟩ := findEntry_split hfound
  have htag := (findEntry_mem hfound).2
  rw [QueueTagsDistinct, hq, List.map_append, List.map_cons] at hd
  have hother := (List.nodup_middle.mp hd)
  intro x hx hflying
  rw [hte, herase] at hx
  have hmem : x ∈ s.te.queue := by
    rw [hq]
    simp only [List.mem_append, List.mem_cons] at hx ⊢
    tauto
  refine (List.nodup_cons.mp hother).1 ?_
  rw [← List.map_append, htag, ← hfly x hmem hflying]
  exact List.mem_map_of_mem hx

/-- The one entry that may fly is back to WAITING. -/
theorem updateEntry_grounded {tag : Tag} {s : State} (hfly : OnlyFlies tag s) :
    Grounded (updateEntry tag (fun e => { e with state := .waiting }) s) := by
  intro x hx hflying
  simp only [updateEntry_te, List.mem_map] at hx
  obtain ⟨e, he, rfl⟩ := hx
  split_ifs at hflying with htag
  simp only [beq_iff_eq] at htag
  exact htag (hfly e he hflying)

/-- Without the entry nothing flies. -/
theorem OnlyFlies.grounded_of_absent {tag : Tag} {s : State} (hfly : OnlyFlies tag s) (h : findEntry s tag = none) :
    Grounded s := by
  intro e he hflying
  have habsent := List.find?_eq_none.mp h e he
  exact habsent (by simp [hfly e he hflying])

theorem abortAttempt_grounded {tag : Tag} {s : State} (hd : QueueTagsDistinct s) (hfly : OnlyFlies tag s) :
    Grounded (abortAttempt tag s) := by
  unfold abortAttempt
  split
  case h_1 h => exact hfly.grounded_of_absent h
  case h_2 h =>
    split_ifs
    · exact finishEntry_grounded hd hfly h _ _
    · exact updateEntry_grounded hfly

theorem recordJudgement_queue (s : State) (tag : Tag) (a : Nat) (judged : Option AnswerCode) :
    (recordJudgement tag a judged s).te.queue =
      (updateEntry tag (·.answered judged) s).te.queue := by
  rw [(recordJudgement_spec s tag a judged).1]
  rfl

theorem applyOutcome_grounded {tag : Tag} {s : State} (hd : QueueTagsDistinct s) (hfly : OnlyFlies tag s)
    (judged : Option AnswerCode) : Grounded (applyOutcome tag judged s) := by
  simp only [applyOutcome]
  split
  case h_1 h => exact hfly.grounded_of_absent h
  case h_2 e h =>
    split
    case h_1 => exact finishEntry_grounded hd hfly h _ _
    case h_2 a _ =>
      have hqueue := recordJudgement_queue s tag a judged
      have hd' : QueueTagsDistinct (recordJudgement tag a judged s) := by
        have htags : (recordJudgement tag a judged s).te.queue.map (·.tag) = s.te.queue.map (·.tag) := by
          rw [hqueue, updateEntry_te, List.map_map]
          refine List.map_congr_left fun x _ => ?_
          simp only [Function.comp_apply]
          split_ifs <;> rfl
        rwa [QueueTagsDistinct, htags]
      have hfly' : OnlyFlies tag (recordJudgement tag a judged s) := by
        intro x hx hflying
        rw [hqueue] at hx
        obtain ⟨x₀, hx₀, htag, hflying₀⟩ := updateEntry_noneLaunched tag (·.answered judged) s
          (fun _ => ⟨rfl, id⟩) x hx hflying
        rw [← htag]
        exact hfly x₀ hx₀ hflying₀
      have hfound : findEntry (recordJudgement tag a judged s) tag = some (e.answered judged) := by
        rw [findEntry, hqueue]
        exact find_map_tag h fun _ => rfl
      split
      · exact finishEntry_grounded hd' hfly' hfound _ _
      · split_ifs
        · exact finishEntry_grounded hd' hfly' hfound _ _
        · exact updateEntry_grounded hfly'

/-! ### Claims that end -/

theorem claimOpen_of_none {s : State} (h : s.ac.tracker.access.claim = none) : claimOpen s = false := by
  simp [claimOpen, claimUnsettled, claimProgress, h]

theorem withdrawClaim_grounded {s : State} (hd : QueueTagsDistinct s) (hs : InFlightClaimed s) : Grounded (withdrawClaim s) := by
  have hte : (setProgress .withdrawn s).te.queue = s.te.queue := by simp
  simp only [withdrawClaim]
  split
  case h_1 h => exact hs.grounded (claimOpen_of_none h)
  case h_2 c hc =>
    split
    case h_1 tag hcontent =>
      refine abortAttempt_grounded (by simpa [QueueTagsDistinct] using hd) ?_
      simpa [OnlyFlies] using hs.onlyFlies hc hcontent
    case h_2 h | h_3 h =>
      refine (hs.grounded_of_content ?_).of_noneLaunched (.of_te hte)
      simp [claimContent, hc, h]

theorem frameMismatch_grounded {s : State} (hd : QueueTagsDistinct s) (hs : InFlightClaimed s) :
    Grounded (frameMismatch s) := by
  simp only [frameMismatch]
  split
  case h_1 h => exact hs.grounded (claimOpen_of_none h)
  case h_2 c hc =>
    have htaken : Grounded (match c.content with
        | .entry tag => abortAttempt tag (setProgress .mismatched s)
        | .orderReset => setProgress .mismatched s
        | .wake => setProgress .mismatched s) := by
      split
      case h_1 tag hcontent =>
        refine abortAttempt_grounded (by simpa [QueueTagsDistinct] using hd) ?_
        simpa [OnlyFlies] using hs.onlyFlies hc hcontent
      case h_2 h | h_3 h =>
        refine (hs.grounded_of_content ?_).of_noneLaunched (.of_te (by simp))
        simp [claimContent, hc, h]
    split_ifs <;> exact htaken.of_noneLaunched (.of_te rfl)

theorem claimUnsettled_congr {s t : State} (h : t.ac.tracker.access.claim = s.ac.tracker.access.claim) :
    claimUnsettled t = claimUnsettled s := by
  simp [claimUnsettled, claimProgress, h]

/-- The access end and the stuck event settle the own claim (R45, R52, R116). -/
theorem takeOutcome_grounded {s : State} (hd : QueueTagsDistinct s) (hs : InFlightClaimed s)
    (hsettled : claimUnsettled s = false) : Grounded (takeOutcome s) := by
  have houtcome : Grounded (match s.ac.tracker.access.claim with
      | some c => match c.progress, c.content with
        | .passed, .entry tag => applyOutcome tag s.fu.window.judgement s
        | _, _ => s
      | none => s) := by
    split
    case h_1 c hc =>
      split
      case h_1 tag _ hcontent => exact applyOutcome_grounded hd (hs.onlyFlies hc hcontent) _
      case h_2 hnot =>
        by_cases hpassed : c.progress = .passed
        · refine hs.grounded_of_content fun tag hcontent => ?_
          rw [claimContent, hc] at hcontent
          exact hnot tag hpassed (Option.some.inj hcontent)
        · refine hs.grounded ?_
          rw [claimOpen, hsettled, claimProgress, hc]
          simpa using hpassed
    case h_2 h => exact hs.grounded (claimOpen_of_none h)
  exact houtcome.of_noneLaunched (.of_te rfl)

/-! ### Claims that begin and go on -/

theorem InFlightClaimed.of_eq {s t : State} (h : InFlightClaimed s) (hq : t.te.queue = s.te.queue)
    (hclaim : t.ac.tracker.access.claim = s.ac.tracker.access.claim) : InFlightClaimed t := h.of_kept (.of_te hq) hclaim

theorem AcWatches.inFlightClaimed {s t : State} (h : AcWatches s t) (hq : t.te.queue = s.te.queue)
    (hs : InFlightClaimed s) : InFlightClaimed t := hs.of_eq hq h.claim

/-- A wake comes only to a station whose claim holds no access (R47; log 26). -/
theorem wakeIfNeeded_inFlightClaimed {s : State} (hs : InFlightClaimed s) : InFlightClaimed (wakeIfNeeded s) := by
  by_cases hopen : claimOpen s = true
  · have hsame : wakeIfNeeded s = s := by simp [wakeIfNeeded, hopen]
    rwa [hsame]
  · have hgrounded := hs.grounded (by simpa using hopen)
    exact (hgrounded.of_noneLaunched (.of_te (by simp))).inFlightClaimed

/-- Of a queue in which nothing flies the launch lets one entry fly (R109). -/
theorem launchEntry_onlyFlies {s : State} (hs : Grounded s) (content : ClaimContent) :
    ∀ e ∈ (launchEntry content s).te.queue, e.state = .inFlight → content = .entry e.tag := by
  have grounded {content : ClaimContent} : ∀ e ∈ s.te.queue, e.state = .inFlight → content = .entry e.tag :=
    fun e he hflying => absurd hflying (hs e he)
  unfold launchEntry
  split
  case h_1 tag =>
    split
    case h_1 =>
      intro e he hflying
      simp only [updateEntry_te, List.mem_map] at he
      obtain ⟨e₀, he₀, rfl⟩ := he
      split_ifs at hflying ⊢ with htag
      · simp only [beq_iff_eq] at htag
        rw [← htag]
        rfl
      · exact absurd hflying (hs e₀ he₀)
    case h_2 => exact grounded
  case h_2 => exact grounded
  case h_3 => exact grounded

theorem launchEntry_queueTags (content : ClaimContent) (s : State) :
    (launchEntry content s).te.queue.map (·.tag) = s.te.queue.map (·.tag) := by
  unfold launchEntry
  split
  · split
    · rw [updateEntry_te, List.map_map]
      refine List.map_congr_left fun x _ => ?_
      simp only [Function.comp_apply]
      split_ifs <;> rfl
    · rfl
  all_goals rfl

/-- The mark of the own slot takes the access for the entry it launches, or is withdrawn with it (R39, R41, R109). -/
theorem claimSlot_inFlightClaimed {s : State} (hd : QueueTagsDistinct s) (hs : Grounded s) (k : Nat)
    (content : ClaimContent) : InFlightClaimed (claimSlot k content s) := by
  have hclaimed : InFlightClaimed (setClaim
      (some { slot := some k, content := content, progress := .marked, markedAt := (launchEntry content s).li.time })
      (launchEntry content s)) := by
    intro e he hflying
    rw [(setClaim_frame _ _).2.2.2.1] at he
    have hcontent := launchEntry_onlyFlies hs content e he hflying
    exact ⟨by simp [claimOpen, claimUnsettled, claimProgress], by simp [claimContent, hcontent]⟩
  simp only [claimSlot]
  split_ifs
  · refine (withdrawClaim_grounded ?_ hclaimed).inFlightClaimed
    rw [QueueTagsDistinct, (setClaim_frame _ _).2.2.2.1, launchEntry_queueTags]
    exact hd
  · exact hclaimed.of_eq (by simp) (by simp)

theorem slotStart_inFlightClaimed {s : State} (hd : QueueTagsDistinct s) (hs : Grounded s) (k : Nat) :
    InFlightClaimed (slotStart k s) := by
  have hstart : Grounded (onTracker (fun t => { t with slotTaken := true }) (runTo (slotStartTime s k) s)) :=
    hs.of_noneLaunched (.of_te (by simp [runTo]))
  simp only [slotStart]
  split
  · exact claimSlot_inFlightClaimed (by simpa [QueueTagsDistinct, runTo] using hd) hstart k _
  · exact hstart.inFlightClaimed

/-- Echo pass of the frame lets the claim hold the access until its end (R42). -/
theorem framePassed_inFlightClaimed {s : State} (hs : InFlightClaimed s) (r : FrameRequest) :
    InFlightClaimed (framePassed r s) := by
  refine hs.of_progress (p := .passed) ?_ (.inr (.inr rfl)) ?_
  · simp only [framePassed]
    split_ifs
    all_goals
      split
      · exact updateEntry_noneLaunched _ (fun e => { e with attempts := e.attempts + 1 }) s
      all_goals exact .of_te rfl
  · simp only [framePassed]
    split_ifs <;> split <;> rfl

theorem echoPass_inFlightClaimed {s : State} (hs : InFlightClaimed s) (x : Transmission) :
    InFlightClaimed (echoPass x s) := by
  have hfinish : InFlightClaimed (finishTransmission x s) := by
    refine hs.of_eq (by simp) ?_
    simp only [finishTransmission]
    split <;> simp [burstTo]
  simp only [echoPass]
  split
  · unfold markPassed
    split_ifs
    · exact hfinish.of_progress (p := .held) (.of_te (by simp)) (.inl rfl) (by simp)
    · exact hfinish
  · split
    · exact framePassed_inFlightClaimed hfinish _
    · exact hfinish
  · exact hfinish.of_eq (by simp) (by simp)

theorem echoMismatch_inFlightClaimed {s : State} (hd : QueueTagsDistinct s) (hs : InFlightClaimed s) (x : Transmission) :
    InFlightClaimed (echoMismatch x s) := by
  have hclaim := (markPartial_watches (releaseDriver s)).claim
  have hmarked : InFlightClaimed (markPartial (releaseDriver s)) :=
    (markPartial_watches (releaseDriver s)).inFlightClaimed (by simp) (hs.of_eq (by simp) (by simp))
  unfold echoMismatch mismatchAtOwner
  split
  · split_ifs
    · exact (withdrawClaim_grounded (by simpa [QueueTagsDistinct] using hd) hmarked).inFlightClaimed
    · exact hmarked
  · exact (frameMismatch_grounded (by simpa [QueueTagsDistinct] using hd)
      (hmarked.of_eq (t := setFramer .idle _) (by simp) (by simp))).inFlightClaimed
  · exact hmarked.of_eq (by simp) (by simp)

theorem frameStart_inFlightClaimed {s : State} (hd : QueueTagsDistinct s) (hs : InFlightClaimed s) (c : OwnClaim) :
    InFlightClaimed (frameStart c s) := by
  have hrun : InFlightClaimed (runTo (c.markedAt + s.ac.setup.slot) s) := hs.of_eq (by simp) (by simp [runTo])
  simp only [frameStart]
  split
  · have hsent : InFlightClaimed (setProgress .sent (runTo (c.markedAt + s.ac.setup.slot) s)) :=
      hrun.of_progress (p := .sent) (.of_te (by simp)) (.inr (.inl rfl)) (by simp)
    simp only [sendFrame]
    split_ifs
    · exact hsent.of_eq (by simp) (by simp)
    · exact (frameMismatch_grounded (by simpa [QueueTagsDistinct] using hd) hsent).inFlightClaimed
  · exact hrun

/-! ### The access end and the stuck event -/

theorem AccessTaken.grounded {s t : State} (h : AccessTaken s t) (hs : Grounded s) : Grounded t := by
  cases h with
  | left => exact .of_empty (enterOffline_queue s)
  | _ => exact hs.of_noneLaunched (.of_te (by simp))

theorem completeGuard_grounded {s : State} (hd : QueueTagsDistinct s) (hs : InFlightClaimed s)
    (hsettled : claimUnsettled s = false) (n : Nat) : Grounded (completeGuard n s) := by
  have hpassed : Grounded (takeOutcome (passTime (guardBits - n) s)) :=
    takeOutcome_grounded (by simpa [QueueTagsDistinct] using hd) (hs.of_eq (by simp) (by simp))
      ((claimUnsettled_congr (by simp)).trans hsettled)
  have hqueue (m : Nat) (u : State) : (accessEnd m u).te.queue = (accessEndAtAc (takeOutcome u)).te.queue := by
    simp only [accessEnd]
    split <;> simp
  exact ((accessEndAtAc_taken _).grounded hpassed).of_noneLaunched (.of_te (hqueue _ _))

theorem stuckNotices_grounded {s : State} (hd : QueueTagsDistinct s) (hs : InFlightClaimed s)
    (hsettled : claimUnsettled s = false) : Grounded (stuckNotices s) := by
  have htaken {u : State} (hq : u.te = s.te) (hac : u.ac = s.ac) : Grounded (takeOutcome u) :=
    takeOutcome_grounded (by simpa [QueueTagsDistinct, hq] using hd) (hs.of_eq (by rw [hq]) (by rw [hac]))
      ((claimUnsettled_congr (by rw [hac])).trans hsettled)
  unfold stuckNotices
  split_ifs
  · exact (htaken (u := nextChoice s) (by simp) (by simp)).of_noneLaunched (.of_te (by simp))
  · exact htaken (by simp) (by simp)
  · exact htaken (by simp) (by simp)

theorem declareStuck_grounded {s : State} (hd : QueueTagsDistinct s) (hs : InFlightClaimed s)
    (hsettled : claimUnsettled s = false) : Grounded (declareStuck s) := by
  have hstation {u : State} (hu : Grounded u) : Grounded (stationAtStuck u) := by
    unfold stationAtStuck
    split
    case h_2 => exact .of_empty (enterOffline_queue u)
    all_goals exact hu.of_noneLaunched (.of_te (by simp))
  refine hstation (Grounded.of_noneLaunched ?_ (.of_te (s := stuckNotices (onLi (fun l => { l with sensing := .stuck })
    (passTime (stuckLimit - s.li.stuckTimer) s))) rfl))
  exact stuckNotices_grounded (by simpa [QueueTagsDistinct] using hd) (hs.of_eq (by simp) (by simp))
    ((claimUnsettled_congr (by simp)).trans hsettled)

/-! ### Every change -/

theorem LineChange.inFlightClaimed {s t : State} (h : LineChange s t) (hd : QueueTagsDistinct s)
    (hs : InFlightClaimed s) : InFlightClaimed t := by
  have hpass {u : State} (hu : u = s ∨ ∃ n, u = passTime n s) : InFlightClaimed u := by
    obtain rfl | ⟨n, rfl⟩ := hu
    · exact hs
    · exact hs.of_eq (by simp) (by simp)
  cases h with
  | time n => exact hs.of_eq (by simp) (by simp)
  | level x => exact hs
  | active n => exact ((passTime_watches n s).trans (activeEvent_watches _)).inFlightClaimed (by simp) hs
  | candidate => exact (candidateStep_watches _ s).inFlightClaimed (by simp) hs
  | reading r => exact (passReading_watches r s).inFlightClaimed (by simp) hs
  | held => exact hs.of_eq (by simp) (by simp)
  | quiet hu => exact (quietEvent_watches _).inFlightClaimed (by simp) (hpass hu)
  | free hu => exact (declareFree_watches _).inFlightClaimed (by simp) (hpass hu)
  | answer => exact hs.of_eq (by simp [runTo]) (by simp [runTo])
  | echoPass => exact echoPass_inFlightClaimed hs _
  | echoMismatch n =>
    exact echoMismatch_inFlightClaimed (by simpa [QueueTagsDistinct] using hd) (hpass (.inr ⟨n, rfl⟩)) _
  | slotStart k _ _ hopen => exact slotStart_inFlightClaimed hd (hs.grounded hopen) k
  | frameStart => exact frameStart_inFlightClaimed hd hs _
  | roundEnd =>
    simp only [endRound]
    split_ifs
    · exact hs.of_eq (by simp) (by simp [runTo])
    · exact wakeIfNeeded_inFlightClaimed (hs.of_eq (by simp) (by simp [runTo]))
  | restDetected => exact wakeIfNeeded_inFlightClaimed (hs.of_eq (by simp) (by simp))
  | holdOffExpired => exact wakeIfNeeded_inFlightClaimed (hs.of_eq (by simp) (by simp [runTo]))
  | guardComplete n _ _ hsettled => exact (completeGuard_grounded hd hs hsettled n).inFlightClaimed
  | stuck _ _ hsettled => exact (declareStuck_grounded hd hs hsettled).inFlightClaimed

theorem Decision.inFlightClaimed {c : Command} {s t : State} (h : Decision c s t)
    (hempty : s.ac.station = .offline → s.te.queue = []) (hs : InFlightClaimed s) : InFlightClaimed t := by
  cases h with
  | join hoff => exact (Grounded.of_empty (by simpa using hempty hoff)).inFlightClaimed
  | leave =>
    obtain ⟨h, -⟩ | ⟨h, -⟩ | h := leaveLine_cases s <;> rw [h]
    · exact hs
    · exact hs.of_eq (by simp) (by simp)
    · exact (Grounded.of_empty (enterOffline_queue s)).inFlightClaimed
  | cancelWaiting => exact hs.of_kept (finishEntry_noneLaunched _ _ _ s) (by simp)
  | cancelInFlight tag => exact hs.of_kept (updateEntry_noneLaunched tag (fun e => { e with cancelPending := true }) s) (by simp)
  | _ => exact hs.of_eq (by simp) (by simp)

/-- An entry that joins the queue is WAITING (R106). -/
theorem endSubmit_inFlightClaimed {s : State} (hs : InFlightClaimed s) (o : OpenSubmit) : InFlightClaimed (endSubmit o s) := by
  simp only [endSubmit]
  split_ifs
  · refine wakeIfNeeded_inFlightClaimed (hs.of_kept (fun e he hflying => ?_) (by simp))
    rw [onTe_te] at he
    obtain he | he := List.mem_append.mp he
    · exact ⟨e, he, rfl, hflying⟩
    · obtain rfl := List.mem_singleton.mp he
      simp [OpenSubmit.entry] at hflying
  · exact hs.of_eq (by simp) (by simp)

theorem HostChange.inFlightClaimed {s t : State} (h : HostChange s t)
    (hempty : s.ac.station = .offline → s.te.queue = []) (hs : InFlightClaimed s) : InFlightClaimed t := by
  cases h with
  | decided r data hu ht =>
    obtain ⟨-, -, hac, -, hte, -⟩ := hu.frame
    have hdecided := ht.inFlightClaimed (by rw [hac, hte]; exact hempty) (hs.of_eq (by rw [hte]) (by rw [hac]))
    exact hdecided.of_eq (by simp) (by simp)
  | submitted => exact (endSubmit_inFlightClaimed hs _).of_eq rfl rfl
  | restarted => exact (Grounded.of_empty rfl).inFlightClaimed
  | hardReset => exact (Grounded.of_empty rfl).inFlightClaimed
  | _ => exact hs.of_eq (by simp) (by simp)

theorem Change.inFlightClaimed {s t : State} (h : Change s t) (hd : QueueTagsDistinct s)
    (hempty : s.ac.station = .offline → s.te.queue = []) (hs : InFlightClaimed s) : InFlightClaimed t := by
  cases h with
  | nothing => exact hs
  | host h => exact h.inFlightClaimed hempty hs
  | line h => exact h.inFlightClaimed hd hs

/-- Entries in flight are contents of the one own claim, so with distinct tags there is at most one (R109). -/
theorem InFlightClaimed.length_le_one {s : State} (h : InFlightClaimed s) (hd : QueueTagsDistinct s) :
    (inFlightEntries s).length ≤ 1 := by
  have hnodup : ((inFlightEntries s).map (·.tag)).Nodup := hd.sublist ((List.filter_sublist).map _)
  have hone : ∀ e ∈ inFlightEntries s, claimContent s = some (.entry e.tag) := by
    intro e he
    simp only [inFlightEntries, List.mem_filter, beq_iff_eq] at he
    exact (h e he.1 he.2).2
  cases hentries : inFlightEntries s with
  | nil => simp
  | cons e rest =>
    cases rest with
    | nil => simp
    | cons e' rest =>
      rw [hentries] at hnodup hone
      have hsame := (hone e (by simp)).symm.trans (hone e' (by simp))
      simp only [Option.some.injEq, ClaimContent.entry.injEq] at hsame
      simp [hsame] at hnodup

/-- Settles O60: an entry is launched by a claim that finds none in flight, and where its claim ends it is back to WAITING
or finished. -/
theorem stepsKeepInFlightClaimed : Obligations.StepsKeepInFlightClaimed := by
  intro s t hsound hstep
  obtain ⟨-, hoffline, hdistinct, hs⟩ := hsound
  obtain ⟨-, hempty, -⟩ := hoffline
  obtain ⟨rest, hchange⟩ := change_of_step hstep
  have ht : InFlightClaimed t := hchange.inFlightClaimed (TagsDistinct.queue (s := { s with pending := rest }) hdistinct) hempty hs
  exact ⟨ht, ht.length_le_one (hchange.tagsDistinct hdistinct).queue⟩

end Sys2Proof.Machine
end

section
/-! Notices and peers over every step (chapters 06 and 11): what is ever written into the notice queue and the Peer Table. -/

namespace Sys2Proof.Machine

/-! ### Notices that are raised, entries that stay sound -/

/-- Notices have been raised on a queue, one after the other (R174). -/
inductive Raised (q : List NoticeRecord) : List NoticeRecord → Prop
  | none : Raised q q
  | add {r : List NoticeRecord} (reading : Bool) (n : Notice) (h : Raised q r) : Raised q (addNotice reading n r)

theorem Raised.trans {q r u : List NoticeRecord} (h : Raised q r) (h' : Raised r u) : Raised q u := by
  induction h' with
  | none => exact h
  | add reading n _ ih => exact .add reading n ih

theorem Raised.length {q r : List NoticeRecord} (h : Raised q r) (hq : q.length ≤ 16) : r.length ≤ 16 := by
  induction h with
  | none => exact hq
  | add _ _ _ ih => exact addNotice_length ih

theorem Raised.counts {q r : List NoticeRecord} (h : Raised q r) (hq : ∀ x ∈ q, x.repeats ≤ 255 ∧ x.lostAfter ≤ 255) :
    ∀ x ∈ r, x.repeats ≤ 255 ∧ x.lostAfter ≤ 255 := by
  induction h with
  | none => exact hq
  | add _ _ _ ih => exact addNotice_counts ih

/-- The count of an entry is in its range, and an entry whose count stands at 3 is SILENT (R89, R91). -/
abbrev PeerEntry.Sound (e : PeerEntry) : Prop := e.unanswered ≤ 3 ∧ (e.unanswered = 3 → e.presence = .silent)

theorem PeerEntry.initial_sound : PeerEntry.initial.Sound := by
  simp [PeerEntry.Sound, PeerEntry.initial]

theorem peersSound_iff (s : State) : PeersSound s ↔ ∀ a, (peerEntry s a).Sound := by
  constructor
  · intro h a
    by_cases ha : a < 32
    · refine h _ ?_
      simp [peerEntry, ha]
    · rw [peerEntry_outside s (not_lt.mp ha)]
      exact PeerEntry.initial_sound
  · intro h e he
    obtain ⟨a, ha, rfl⟩ := List.mem_iff_getElem.mp he
    have hsound := h a
    rw [Vector.length_toList] at ha
    simpa [peerEntry, ha] using hsound

/-- Nothing is written into the notice queue but notices raised, and the Peer Table stays sound. -/
structure Noted (s t : State) : Prop where
  notices : Raised s.notices t.notices
  peers : PeersSound s → PeersSound t

namespace Noted

theorem of_eq {s t : State} (hn : t.notices = s.notices) (hp : t.peers = s.peers) : Noted s t :=
  ⟨hn ▸ .none, fun h => by rwa [PeersSound, hp]⟩

theorem refl (s : State) : Noted s s := ⟨.none, id⟩

theorem trans {s t u : State} (h : Noted s t) (h' : Noted t u) : Noted s u :=
  ⟨h.notices.trans h'.notices, h'.peers ∘ h.peers⟩

theorem raise (k : NoticeKind) (a : Option Nat) (d : Option ErrorKind) (s : State) : Noted s (raise k a d s) :=
  ⟨.add _ _ .none, id⟩

theorem frameError (k : ErrorKind) (a : Option Nat) (s : State) : Noted s (frameError k a s) := .raise _ _ _ s

/-- A change of one entry that keeps it sound. -/
theorem updatePeer (a : Nat) (f : PeerEntry → PeerEntry) (s : State) (hf : (peerEntry s a).Sound → (f (peerEntry s a)).Sound) :
    Noted s (updatePeer a f s) := by
  refine ⟨by simpa using .none, fun h => ?_⟩
  rw [peersSound_iff] at h ⊢
  intro x
  by_cases hx : x = a
  · subst hx
    by_cases hin : x < 32
    · rw [peerEntry_updatePeer_self _ _ hin]
      exact hf (h x)
    · rw [updatePeer_outside _ _ (not_lt.mp hin)]
      exact h x
  · rw [peerEntry_updatePeer_other _ _ hx]
    exact h x

/-- A change of what is neither count nor presence. -/
theorem updatePeer_of_same (a : Nat) (f : PeerEntry → PeerEntry) (s : State)
    (hf : ∀ e, (f e).unanswered = e.unanswered ∧ (f e).presence = e.presence) :
    Noted s (Machine.updatePeer a f s) := by
  refine updatePeer a f s fun h => ?_
  obtain ⟨hcount, hpresence⟩ := hf (peerEntry s a)
  rwa [PeerEntry.Sound, hcount, hpresence]

end Noted

/-! ### The Peer Table (R90, R91, R98, R100) -/

theorem peerHeard_noted (a : Nat) (s : State) : Noted s (peerHeard a s) := by
  have hheard : Noted s (updatePeer a (fun e => { e with presence := .present, unanswered := 0 }) s) :=
    .updatePeer _ _ s fun _ => by simp [PeerEntry.Sound]
  simp only [peerHeard]
  split_ifs
  · exact hheard.trans (.raise _ _ _ _)
  · exact hheard

theorem peerAnswered_noted (a : Nat) (s : State) : Noted s (peerAnswered a s) :=
  .updatePeer _ _ s fun _ => by simp [PeerEntry.Sound]

theorem setHoldOff_noted (a : Nat) (s : State) : Noted s (setHoldOff a s) := .updatePeer_of_same _ _ s fun _ => ⟨rfl, rfl⟩

/-- An unanswered attempt counts to 3, and the third makes the peer SILENT (R91). -/
theorem peerUnanswered_noted (a : Nat) (s : State) : Noted s (peerUnanswered a s) := by
  have hcounted := peerEntry_updatePeer_self s (fun e => { e with unanswered := min 3 (e.unanswered + 1) }) (a := a)
  simp only [peerUnanswered, Bool.and_eq_true, beq_iff_eq, bne_iff_ne, ne_eq]
  split_ifs with hthird
  · refine .trans (t := updatePeer a (fun e => { e with presence := .silent })
      (updatePeer a (fun e => { e with unanswered := min 3 (e.unanswered + 1) }) s)) ?_ (.raise _ _ _ _)
    refine ⟨by simpa using .none, fun h => ?_⟩
    rw [peersSound_iff] at h ⊢
    intro x
    by_cases hx : x = a
    · subst hx
      by_cases hin : x < 32
      · rw [peerEntry_updatePeer_self _ _ hin, hcounted hin]
        simp [PeerEntry.Sound]
      · rw [updatePeer_outside _ _ (not_lt.mp hin), updatePeer_outside _ _ (not_lt.mp hin)]
        exact h x
    · rw [peerEntry_updatePeer_other _ _ hx, peerEntry_updatePeer_other _ _ hx]
      exact h x
  · refine .updatePeer _ _ s fun ⟨hle, hsilent⟩ => ⟨Nat.min_le_left _ _, fun hthree => ?_⟩
    have hcount : (peerEntry s a).unanswered = 2 ∨ (peerEntry s a).unanswered = 3 := by
      have hmin : min 3 ((peerEntry s a).unanswered + 1) = 3 := hthree
      omega
    obtain htwo | hthree := hcount
    · by_contra hpresence
      exact hthird ⟨htwo, hpresence⟩
    · exact hsilent hthree

theorem endSensing_noted (s : State) : Noted s (endSensing s) := by
  refine ⟨by simpa using .none, fun h => ?_⟩
  rw [peersSound_iff] at h ⊢
  intro a
  rw [peerEntry_endSensing]
  unfold PeerEntry.freeze
  split <;> exact h a

theorem halt_noted (s : State) : Noted s (halt s) :=
  (Noted.raise .addressConflict (some (ownAddress s)) none s).trans
    ((endSensing_noted _).trans (.of_eq (t := halt s) rfl rfl))

/-! ### Entries that finish, attempts that end -/

theorem finishEntry_noted (tag : Tag) (outcome : MessageOutcome) (note : Bool) (s : State) :
    Noted s (finishEntry tag outcome note s) := by
  cases hfound : findEntry s tag with
  | none => rw [finishEntry_absent hfound]; exact .of_eq (by simp) (by simp)
  | some e =>
    obtain ⟨-, -, hpeers⟩ := finishEntry_found hfound outcome note
    have hadvance : Noted s (advanceSequence e s) := by
      unfold advanceSequence
      split
      · exact .updatePeer_of_same _ _ s fun _ => ⟨rfl, rfl⟩
      · exact .of_eq (by simp) (by simp)
    exact hadvance.trans (.of_eq (by simp) hpeers)

theorem flushQueue_noted (s : State) : Noted s (flushQueue s) := by
  unfold flushQueue
  generalize s.te.queue = q
  induction q generalizing s with
  | nil => exact .of_eq (by simp) (by simp)
  | cons e q ih => exact (finishEntry_noted _ _ _ s).trans (ih _)

theorem enterOffline_noted (s : State) : Noted s (enterOffline s) :=
  ((endSensing_noted s).trans (flushQueue_noted _)).trans (.of_eq rfl rfl)

theorem abortAttempt_noted (tag : Tag) (s : State) : Noted s (abortAttempt tag s) := by
  unfold abortAttempt
  split
  · exact .of_eq (by simp) (by simp)
  · split_ifs
    · exact finishEntry_noted _ _ _ s
    · exact .of_eq (by simp) (by simp)

theorem recordJudgement_noted (tag : Tag) (a : Nat) (judged : Option AnswerCode) (s : State) :
    Noted s (recordJudgement tag a judged s) := by
  cases judged with
  | none => exact peerUnanswered_noted a s
  | some code =>
    have hanswered : Noted s (updateEntry tag (fun e => { e with lastAnswer := some code }) (peerAnswered a s)) :=
      (peerAnswered_noted a s).trans (.of_eq (by simp) (by simp))
    simp only [recordJudgement]
    split_ifs
    · exact hanswered.trans (setHoldOff_noted a _)
    · exact hanswered

theorem applyOutcome_noted (tag : Tag) (judged : Option AnswerCode) (s : State) : Noted s (applyOutcome tag judged s) := by
  simp only [applyOutcome]
  split
  · exact .of_eq (by simp) (by simp)
  split
  · exact finishEntry_noted _ _ _ s
  split
  · exact (recordJudgement_noted tag _ judged s).trans (finishEntry_noted _ _ _ _)
  split_ifs
  · exact (recordJudgement_noted tag _ judged s).trans (finishEntry_noted _ _ _ _)
  · exact (recordJudgement_noted tag _ judged s).trans (.of_eq rfl rfl)

theorem takeOutcome_noted (s : State) : Noted s (takeOutcome s) := by
  have hclosed (u : State) : Noted u (setWindow .closed u) := .of_eq (by simp) (by simp)
  simp only [takeOutcome]
  refine .trans ?_ (hclosed _)
  split
  · split
    · exact applyOutcome_noted _ _ s
    · exact .of_eq (by simp) (by simp)
  · exact .of_eq (by simp) (by simp)

theorem withdrawClaim_noted (s : State) : Noted s (withdrawClaim s) := by
  simp only [withdrawClaim]
  split
  · exact .of_eq (by simp) (by simp)
  · split
    · exact .trans (.of_eq (by simp) (by simp)) (abortAttempt_noted _ (setProgress .withdrawn s))
    all_goals exact .of_eq (by simp) (by simp)

theorem frameMismatch_noted (s : State) : Noted s (frameMismatch s) := by
  simp only [frameMismatch]
  split
  · exact .of_eq (by simp) (by simp)
  · rename_i c _
    have htaken : Noted s (raise .collision none none (match c.content with
        | .entry tag => abortAttempt tag (setProgress .mismatched s)
        | .orderReset => setProgress .mismatched s
        | .wake => setProgress .mismatched s)) := by
      refine .trans ?_ (.raise _ _ _ _)
      split
      · exact .trans (.of_eq (by simp) (by simp)) (abortAttempt_noted _ (setProgress .mismatched s))
      all_goals exact .of_eq (by simp) (by simp)
    split_ifs
    · refine .trans ?_ (halt_noted _)
      exact htaken.trans (.of_eq rfl rfl)
    · exact htaken.trans (.of_eq rfl rfl)
    · exact htaken

/-! ### Readings and frame ends -/

theorem headerError_noted (s : State) : Noted s (headerError s) := .trans (.of_eq (by simp) (by simp)) (.frameError _ _ (reportFrame _ _))

theorem takeHunt_noted (r : Reading) (s : State) : Noted s (takeHunt r s) := by
  simp only [takeHunt]
  split_ifs
  · exact .of_eq (by simp) (by simp)
  · exact .trans (.of_eq (by simp) (by simp)) (.frameError _ _ (reportFrame _ _))
  · exact .of_eq (by simp) (by simp)

theorem headerValid_noted (h : Header) (s : State) : Noted s (headerValid h s) := by
  have hstaging (u : State) : Noted u (openStaging h u) := .of_eq (by simp) (by simp)
  simp only [headerValid]
  split_ifs
  · exact .of_eq (by simp) (by simp)
  · exact (Noted.trans (.of_eq (by simp) (by simp)) (peerHeard_noted h.source (reportFrame (.header h .awaited none)
      (onDeframer (Deframer.enterBody h) s)))).trans (hstaging _)

theorem takeHeaderByte_noted (b : Byte) (s : State) : Noted s (takeHeaderByte b s) := by
  simp only [takeHeaderByte]
  split_ifs
  · split
    · exact .trans (.of_eq (by simp) (by simp)) (headerValid_noted _ _)
    · exact .trans (.of_eq (by simp) (by simp)) (headerError_noted _)
  · exact .of_eq (by simp) (by simp)

theorem takeHeader_noted (r : Reading) (s : State) : Noted s (takeHeader r s) := by
  have hbit (b : Bool) : Noted s (takeHeaderBit b s) := by
    simp only [takeHeaderBit]
    split_ifs
    · exact takeHeaderByte_noted _ s
    · exact .of_eq (by simp) (by simp)
  cases r with
  | one => exact hbit true
  | zero => exact hbit false
  | bad => exact headerError_noted s

theorem takeOverrun_noted (s : State) : Noted s (takeOverrun s) := by
  simp only [takeOverrun]
  refine .trans (.of_eq ?_ ?_) (.frameError _ _ _)
  all_goals split_ifs <;> split <;> simp

theorem takeReading_noted (r : Reading) (s : State) : Noted s (takeReading r s) := by
  unfold takeReading
  split
  case h_2 => exact takeHunt_noted r s
  case h_3 => exact takeHeader_noted r s
  case h_5 =>
    unfold takeTail
    split_ifs
    · exact takeOverrun_noted s
    · exact .of_eq (by simp) (by simp)
  all_goals exact .of_eq (by simp) (by simp)

theorem readingStep_noted (r : Reading) (s : State) : Noted s (readingStep r s) :=
  .trans (.of_eq (by simp) (by simp)) (takeReading_noted r (handReading s))

theorem passReading_noted (r : Reading) (s : State) : Noted s (passReading r s) := by
  have hheld : Noted s (passHeld s) := by
    unfold passHeld
    split_ifs
    · exact .trans (.of_eq (by simp) (by simp)) (readingStep_noted .bad (setHeld false s))
    · exact .of_eq (by simp) (by simp)
  exact hheld.trans (readingStep_noted r _)

theorem directDecision_noted (good : Bool) (h : FrameHeader) (s : State) : Noted s (directDecision good h s) := by
  have heffect (code : AnswerCode) : Noted s (directEffect code h s) := by
    cases code with
    | accepted =>
      exact Noted.trans (t := storeFrame .direct h s) (.of_eq rfl rfl)
        (.updatePeer_of_same h.source (fun e => { e with lastAccepted := some h.sequence }) _ fun _ => ⟨rfl, rfl⟩)
    | full => exact .raise _ _ _ s
    | _ => exact .refl s
  exact (heffect _).trans (.of_eq rfl rfl)

theorem receiveDecision_noted (good : Bool) (header : Header) (s : State) : Noted s (receiveDecision good header s) := by
  obtain ⟨u, hu, h⟩ := receiveDecision_cases good header s
  rw [h]
  refine .trans (t := u) ?_ (.of_eq (by simp) (by simp))
  cases hu with
  | none => exact .refl s
  | direct f => exact directDecision_noted good f s
  | _ => exact .of_eq (by simp) (by simp)

theorem frameEnd_noted (h : Header) (s : State) : Noted s (frameEnd h s) := by
  simp only [frameEnd]
  split_ifs
  · exact .trans (.of_eq (by simp) (by simp)) (receiveDecision_noted _ h (reportFrame _ _))
  · exact (Noted.trans (.of_eq (by simp) (by simp)) (.frameError _ _ (reportFrame _ _))).trans (receiveDecision_noted _ h _)

theorem truncatedEnd_noted (s : State) : Noted s (truncatedEnd s) := by
  simp only [truncatedEnd]
  refine .trans (.of_eq ?_ ?_) (.frameError _ _ _)
  all_goals split <;> simp

theorem candidateEnd_noted (s : State) : Noted s (candidateEnd s) := by
  obtain h | h | ⟨f, h⟩ := candidateEnd_cases s <;> rw [h]
  · exact .of_eq (by simp) (by simp)
  · exact (truncatedEnd_noted s).trans (.of_eq (by simp) (by simp))
  · exact (frameEnd_noted f s).trans (.of_eq (by simp) (by simp))

theorem quietEvent_noted (s : State) : Noted s (quietEvent s) := by
  unfold quietEvent
  split
  · rename_i b _
    simp only [burstEnd]
    refine .trans (t := if b.candidate && !b.isPartial then candidateEnd (quietAtLi b s) else quietAtLi b s) ?_ (.of_eq (by simp) (by simp))
    split_ifs
    · exact .trans (.of_eq (by simp) (by simp)) (candidateEnd_noted (quietAtLi b s))
    · exact .of_eq (by simp) (by simp)
  · exact .of_eq (by simp) (by simp)

theorem declareFree_noted (s : State) : Noted s (declareFree s) := (Noted.raise _ _ _ s).trans (quietEvent_noted _)

/-! ### The access end and the stuck event -/

theorem AccessTaken.noted {s t : State} (h : AccessTaken s t) : Noted s t := by
  cases h with
  | halted => exact halt_noted s
  | left => exact enterOffline_noted s
  | diverged => exact (Noted.raise _ _ _ s).trans (.of_eq rfl rfl)
  | applied h body =>
    simp only [applyOrderReset]
    refine .trans ?_ (.raise _ _ _ _)
    split_ifs
    · exact .trans (.of_eq (by simp) (by simp)) (.updatePeer_of_same _ _ (setStation .online (resetOrder h.source s)) fun _ => ⟨rfl, rfl⟩)
    · exact .of_eq (by simp) (by simp)
  | otherRoster => exact .raise _ _ _ s
  | otherRosterResync => exact (Noted.raise _ _ _ s).trans (.of_eq rfl rfl)
  | kept => exact .refl s
  | _ => exact .of_eq (by simp) (by simp)

theorem accessEnd_noted (m : Nat) (s : State) : Noted s (accessEnd m s) := by
  have htaken : Noted s (accessEndAtAc (takeOutcome s)) := (takeOutcome_noted s).trans (accessEndAtAc_taken _).noted
  simp only [accessEnd]
  split
  · exact htaken
  · exact htaken
  all_goals exact htaken.trans (.of_eq (by simp) (by simp))

theorem stuckNotices_noted (s : State) : Noted s (stuckNotices s) := by
  unfold stuckNotices
  split_ifs
  · exact (Noted.trans (.of_eq (by simp) (by simp)) (takeOutcome_noted (nextChoice s))).trans (.raise _ _ _ _)
  · exact (Noted.trans (.of_eq (by simp) (by simp)) (.raise _ _ _ (nextChoice s))).trans (takeOutcome_noted _)
  · exact (Noted.raise _ _ _ s).trans (takeOutcome_noted _)

theorem declareStuck_noted (s : State) : Noted s (declareStuck s) := by
  have hstation (u : State) : Noted u (stationAtStuck u) := by
    unfold stationAtStuck
    split
    case h_2 => exact enterOffline_noted u
    all_goals exact .of_eq (by simp) (by simp)
  have hbefore : Noted s (stuckNotices (onLi (fun l => { l with sensing := .stuck })
      (passTime (stuckLimit - s.li.stuckTimer) s))) := .trans (.of_eq (by simp) (by simp)) (stuckNotices_noted _)
  exact (hbefore.trans (.of_eq (by simp) (by simp))).trans (hstation (onAccess _ _))

/-! ### Every change -/

theorem echoMismatch_noted (x : Transmission) (s : State) : Noted s (echoMismatch x s) := by
  have hmarked : Noted s (markPartial (releaseDriver s)) := .of_eq (by simp) (by simp)
  unfold echoMismatch mismatchAtOwner
  split
  · split_ifs
    · exact hmarked.trans (withdrawClaim_noted _)
    · exact hmarked
  · exact (hmarked.trans (.of_eq (by simp) (by simp))).trans (frameMismatch_noted (setFramer _ _))
  · exact hmarked.trans (.of_eq (by simp) (by simp))

theorem frameStart_noted (c : OwnClaim) (s : State) : Noted s (frameStart c s) := by
  simp only [frameStart]
  split
  · simp only [sendFrame]
    split_ifs
    · exact .of_eq (by simp) (by simp)
    · exact .trans (.of_eq (by simp) (by simp)) (frameMismatch_noted (setProgress _ _))
  · exact .of_eq (by simp) (by simp)

theorem slotStart_noted (k : Nat) (s : State) : Noted s (slotStart k s) := by
  simp only [slotStart]
  split
  · simp only [claimSlot]
    split_ifs
    · exact .trans (.of_eq (by simp) (by simp)) (withdrawClaim_noted (setClaim _ _))
    · exact .of_eq (by simp) (by simp)
  · exact .of_eq (by simp) (by simp)

theorem expireHoldOff_noted (a expiry : Nat) (s : State) : Noted s (expireHoldOff a expiry s) :=
  (Noted.trans (.of_eq (by simp) (by simp)) (.updatePeer_of_same a (fun e => { e with holdOff := none }) (runTo expiry s) fun _ => ⟨rfl, rfl⟩)).trans
    (.of_eq (t := wakeIfNeeded _) (by simp) (by simp))

theorem LineChange.noted {s t : State} (h : LineChange s t) : Noted s t := by
  have hpass {u : State} (hu : u = s ∨ ∃ n, u = passTime n s) : Noted s u := by
    obtain rfl | ⟨n, rfl⟩ := hu
    · exact .refl u
    · exact .of_eq (by simp) (by simp)
  cases h with
  | reading r => exact passReading_noted r s
  | quiet hu => exact (hpass hu).trans (quietEvent_noted _)
  | free hu => exact (hpass hu).trans (declareFree_noted _)
  | echoMismatch n => exact (hpass (.inr ⟨n, rfl⟩)).trans (echoMismatch_noted _ _)
  | slotStart k => exact slotStart_noted k s
  | frameStart => exact frameStart_noted _ s
  | holdOffExpired => exact expireHoldOff_noted _ _ s
  | guardComplete n => exact .trans (.of_eq (by simp) (by simp)) (accessEnd_noted _ (passTime (guardBits - n) s))
  | stuck => exact declareStuck_noted s
  | _ => exact .of_eq (by simp) (by simp)

end Sys2Proof.Machine
end

section
/-! The ranges of the counts and timers, and the deframer with its candidate, over every step (chapters 02, 04, 11). -/

namespace Sys2Proof.Machine

/-! ### The stuck timer (R14) -/

/-- The stuck timer stays in its range. -/
def TimerKept (s t : State) : Prop := s.li.stuckTimer ≤ stuckLimit → t.li.stuckTimer ≤ stuckLimit

namespace TimerKept

theorem of_eq {s t : State} (h : t.li.stuckTimer = s.li.stuckTimer) : TimerKept s t := fun hs => h ▸ hs

theorem of_zero {s t : State} (h : t.li.stuckTimer = 0) : TimerKept s t := fun _ => by simp [h]

theorem refl (s : State) : TimerKept s s := id

theorem trans {s t u : State} (h : TimerKept s t) (h' : TimerKept t u) : TimerKept s u := h' ∘ h

end TimerKept

theorem passTime_timer (n : Nat) (s : State) : TimerKept s (passTime n s) := by
  intro hs
  have hdriven : (passDriven n s).li.stuckTimer ≤ stuckLimit := by
    simp only [passDriven, onLi_li]
    split_ifs
    · exact hs
    · exact Nat.zero_le _
    · exact Nat.min_le_left _ _
  unfold passTime
  split
  · exact hs
  · simpa [passQuiet] using hs
  · exact hdriven
  · exact hdriven

theorem readingStep_timer (r : Reading) (s : State) : TimerKept s (readingStep r s) := by
  have hhanded : TimerKept s (handReading s) := fun hs => passTime_timer _ (onLi _ s) hs
  exact hhanded.trans (.of_eq (t := takeReading r (handReading s)) (by simp))

theorem passReading_timer (r : Reading) (s : State) : TimerKept s (passReading r s) := by
  have hheld : TimerKept s (passHeld s) := by
    unfold passHeld
    split_ifs
    · exact TimerKept.trans (.of_eq (by simp)) (readingStep_timer .bad (setHeld false s))
    · exact .refl s
  exact hheld.trans (readingStep_timer r _)

theorem quietEvent_timer (s : State) : TimerKept s (quietEvent s) := by
  refine .of_eq ?_
  unfold quietEvent
  split
  · simp only [burstEnd]
    split_ifs <;> simp [quietAtLi]
  · rfl

theorem wakeIfNeeded_timer (s : State) : TimerKept s (wakeIfNeeded s) := by
  simp only [wakeIfNeeded]
  split_ifs
  · exact .of_eq (by simp)
  · exact .of_zero (by simp)
  · exact .refl s

theorem frameMismatch_timer (s : State) : TimerKept s (frameMismatch s) := by
  simp only [frameMismatch]
  split
  · exact .refl s
  · split_ifs
    · exact .of_zero (by simp)
    all_goals
      refine .of_eq ?_
      split <;> simp

theorem AccessTaken.timer {s t : State} (h : AccessTaken s t) : TimerKept s t := by
  cases h with
  | kept => exact .refl s
  | halted => exact .of_zero (by simp)
  | left => exact .of_zero (by simp)
  | _ => exact .of_eq (by simp)

theorem runTo_timer (n : Nat) (s : State) : TimerKept s (runTo n s) := passTime_timer _ s

theorem candidateStep_timer (b : Burst) (s : State) : TimerKept s (candidateStep b s) := by
  refine (passTime_timer (6 - (s.li.burst.map (·.length)).getD 6) s).trans (.of_eq ?_)
  simp [candidateStep, burstTo]

theorem sendAnswer_timer (a : Answer) (s : State) : TimerKept s (sendAnswer a s) := by
  unfold sendAnswer
  split_ifs
  · exact .of_eq (by simp)
  · exact .of_zero (by simp)

theorem echoPass_timer (x : Transmission) (s : State) : TimerKept s (echoPass x s) := by
  refine .of_zero ?_
  have hfinish : (finishTransmission x s).li.stuckTimer = 0 := rfl
  simp only [echoPass]
  split
  · simp [hfinish]
  · split <;> simp [hfinish]
  · simp [hfinish]

theorem echoMismatch_timer (x : Transmission) (s : State) : TimerKept s (echoMismatch x s) := by
  have hmarked : TimerKept s (markPartial (releaseDriver s)) := .of_zero (by simp [markPartial])
  unfold echoMismatch mismatchAtOwner
  refine hmarked.trans ?_
  split
  · split_ifs
    · exact .of_eq (by simp)
    · exact .refl _
  · exact TimerKept.trans (.of_eq (by simp)) (frameMismatch_timer (setFramer .idle _))
  · exact .of_eq (by simp)

theorem slotStart_timer (k : Nat) (s : State) : TimerKept s (slotStart k s) := by
  have hstart : TimerKept s (onTracker (fun t => { t with slotTaken := true }) (runTo (slotStartTime s k) s)) :=
    (runTo_timer (slotStartTime s k) s).trans (.of_eq (by simp))
  simp only [slotStart]
  split
  · refine hstart.trans ?_
    simp only [claimSlot]
    split_ifs
    · exact .of_eq (by simp)
    · exact .of_zero (by simp)
  · exact hstart

theorem frameStart_timer (c : OwnClaim) (s : State) : TimerKept s (frameStart c s) := by
  have hrun : TimerKept s (runTo (c.markedAt + s.ac.setup.slot) s) := runTo_timer _ s
  simp only [frameStart]
  split
  · refine hrun.trans ?_
    simp only [sendFrame]
    split_ifs
    · exact .of_zero (by simp)
    · exact TimerKept.trans (.of_eq (by simp)) (frameMismatch_timer (setProgress .sent _))
  · exact hrun

theorem endRound_timer (s : State) : TimerKept s (endRound s) := by
  have hrun : TimerKept s (runTo (roundEndTime s) s) := runTo_timer _ s
  simp only [endRound]
  split_ifs
  · exact hrun.trans (.of_eq (by simp))
  · exact (hrun.trans (.of_eq (by simp))).trans (wakeIfNeeded_timer (onTracker _ _))

theorem concludeRest_timer (s : State) : TimerKept s (concludeRest s) := by
  have hrest : TimerKept s (setStation .resync (onTracker (fun t => { t with phase := .rest, unclaimed := 8 })
      (passTime (restDetectInterval s - s.ac.tracker.restDetect) s))) :=
    (passTime_timer (restDetectInterval s - s.ac.tracker.restDetect) s).trans (.of_eq (by simp))
  exact hrest.trans (wakeIfNeeded_timer _)

theorem expireHoldOff_timer (a expiry : Nat) (s : State) : TimerKept s (expireHoldOff a expiry s) := by
  have hexpired : TimerKept s (updatePeer a (fun e => { e with holdOff := none }) (runTo expiry s)) :=
    (runTo_timer expiry s).trans (.of_eq (by simp))
  exact hexpired.trans (wakeIfNeeded_timer _)

theorem accessEnd_timer (m : Nat) (s : State) : TimerKept s (accessEnd m s) := by
  obtain ⟨hli, -⟩ := accessEnd_keeps m s
  have htaken : TimerKept s (accessEndAtAc (takeOutcome s)) :=
    TimerKept.trans (.of_eq (by simp)) (accessEndAtAc_taken (takeOutcome s)).timer
  exact htaken.trans (.of_eq (by rw [hli]))

theorem declareStuck_timer (s : State) : TimerKept s (declareStuck s) := by
  have hstation (u : State) : TimerKept u (stationAtStuck u) := by
    unfold stationAtStuck
    split
    case h_2 => exact .of_zero (by simp)
    all_goals exact .of_eq (by simp)
  refine .trans ?_ (hstation _)
  exact (passTime_timer (stuckLimit - s.li.stuckTimer) s).trans (.of_eq (by simp))

theorem LineChange.timer {s t : State} (h : LineChange s t) : TimerKept s t := by
  have hpass {u : State} (hu : u = s ∨ ∃ n, u = passTime n s) : TimerKept s u := by
    obtain rfl | ⟨n, rfl⟩ := hu
    · exact .refl u
    · exact passTime_timer n s
  cases h with
  | time n => exact passTime_timer n s
  | level => exact .refl s
  | active n => exact .of_zero (by simp [activeEvent, beginBurst])
  | candidate => exact candidateStep_timer _ s
  | reading r => exact passReading_timer r s
  | held => exact .of_eq (by simp)
  | quiet hu => exact (hpass hu).trans (quietEvent_timer _)
  | free hu => exact (hpass hu).trans (TimerKept.trans (.of_eq (by simp)) (quietEvent_timer (raise .lineFree none none _)))
  | @answer a due => exact (runTo_timer due s).trans (sendAnswer_timer a _)
  | echoPass => exact echoPass_timer _ s
  | echoMismatch n => exact (passTime_timer n s).trans (echoMismatch_timer _ _)
  | slotStart k => exact slotStart_timer k s
  | frameStart => exact frameStart_timer _ s
  | roundEnd => exact endRound_timer s
  | restDetected => exact concludeRest_timer s
  | holdOffExpired => exact expireHoldOff_timer _ _ s
  | guardComplete n => exact (passTime_timer _ s).trans (accessEnd_timer _ _)
  | stuck => exact declareStuck_timer s

/-! ### The counts of the AC (R34, R46, R73) -/

/-- The unclaimed count and the count of address collisions are in their ranges. -/
def CountsInRange (s : State) : Prop := s.ac.tracker.unclaimed ≤ 8 ∧ s.ac.collisions ≤ 4

namespace CountsInRange

theorem of_le {s t : State} (hs : CountsInRange s) (hu : t.ac.tracker.unclaimed ≤ s.ac.tracker.unclaimed)
    (hc : t.ac.collisions ≤ s.ac.collisions) : CountsInRange t :=
  ⟨hu.trans hs.1, hc.trans hs.2⟩

theorem watches {s t : State} (hs : CountsInRange s) (h : AcWatches s t) : CountsInRange t := by
  obtain ⟨-, -, -, -, hcollisions⟩ := (orderKept_iff s t).mp h.order
  exact hs.of_le h.unclaimed hcollisions.le

end CountsInRange

theorem frameMismatch_counts {s : State} (hs : CountsInRange s) : CountsInRange (frameMismatch s) := by
  simp only [frameMismatch]
  split
  · exact hs
  · split_ifs
    · exact ⟨by simp [RoundTracker.initial], by simp⟩
    · refine ⟨?_, by simp⟩
      split <;> simpa using hs.1
    · split <;> exact hs.of_le (by simp) (by simp)

theorem wakeIfNeeded_counts {s : State} (hs : CountsInRange s) : CountsInRange (wakeIfNeeded s) := by
  simp only [wakeIfNeeded]
  split_ifs
  · exact hs.of_le (by simp) (by simp)
  · exact hs.of_le (by simp) (by simp)
  · exact hs

theorem AccessTaken.counts {s t : State} (h : AccessTaken s t) (hs : CountsInRange s) : CountsInRange t := by
  cases h with
  | kept => exact hs
  | halted => exact ⟨by simp [RoundTracker.initial], by simpa using hs.2⟩
  | left => exact ⟨by simp [RoundTracker.initial], by simpa using hs.2⟩
  | _ => exact hs.of_le (by simp) (by simp)

theorem echoPass_counts {s : State} (hs : CountsInRange s) (x : Transmission) : CountsInRange (echoPass x s) := by
  have hfinish : CountsInRange (finishTransmission x s) := by
    simp only [finishTransmission]
    split <;> exact hs.of_le (by simp [burstTo]) (by simp [burstTo])
  simp only [echoPass]
  split
  · unfold markPassed
    split_ifs
    · exact hfinish.of_le (by simp) (by simp)
    · exact hfinish
  · split
    · simp only [framePassed]
      repeat' split
      all_goals exact hfinish.of_le (by simp) (by simp)
    · exact hfinish
  · exact hfinish.of_le (by simp) (by simp)

theorem withdrawClaim_counts {s : State} (hs : CountsInRange s) : CountsInRange (withdrawClaim s) := by
  simp only [withdrawClaim]
  split
  · exact hs
  · split <;> exact hs.of_le (by simp) (by simp)

theorem echoMismatch_counts {s : State} (hs : CountsInRange s) (x : Transmission) : CountsInRange (echoMismatch x s) := by
  have hmarked : CountsInRange (markPartial (releaseDriver s)) :=
    CountsInRange.watches (s := releaseDriver s) (hs.of_le (by simp) (by simp)) (markPartial_watches _)
  unfold echoMismatch mismatchAtOwner
  split
  · split_ifs
    · exact withdrawClaim_counts hmarked
    · exact hmarked
  · exact frameMismatch_counts (s := setFramer .idle _) (hmarked.of_le (by simp) (by simp))
  · exact hmarked.of_le (by simp) (by simp)

theorem slotStart_counts {s : State} (hs : CountsInRange s) (k : Nat) : CountsInRange (slotStart k s) := by
  have hstart : CountsInRange (onTracker (fun t => { t with slotTaken := true }) (runTo (slotStartTime s k) s)) :=
    hs.of_le (by simp [runTo]) (by simp [runTo])
  simp only [slotStart]
  split
  · simp only [claimSlot]
    split_ifs
    · exact withdrawClaim_counts (s := setClaim _ _) (hstart.of_le (by simp) (by simp))
    · exact hstart.of_le (by simp) (by simp)
  · exact hstart

theorem frameStart_counts {s : State} (hs : CountsInRange s) (c : OwnClaim) : CountsInRange (frameStart c s) := by
  have hrun : CountsInRange (runTo (c.markedAt + s.ac.setup.slot) s) := hs.watches (passTime_watches _ s)
  simp only [frameStart]
  split
  · simp only [sendFrame]
    split_ifs
    · exact hrun.of_le (by simp) (by simp)
    · exact frameMismatch_counts (s := setProgress .sent _) (hrun.of_le (by simp) (by simp))
  · exact hrun

/-- An unclaimed round counts to 8, where rest begins (R46). -/
theorem endRound_counts {s : State} (hs : CountsInRange s) : CountsInRange (endRound s) := by
  have hrun : CountsInRange (runTo (roundEndTime s) s) := hs.watches (passTime_watches _ s)
  simp only [endRound]
  split_ifs with hcount
  · exact ⟨by simpa using hcount.le, by simpa using hrun.2⟩
  · exact wakeIfNeeded_counts (s := onTracker _ _) ⟨by simp, by simpa using hrun.2⟩

theorem accessEnd_counts {s : State} (hs : CountsInRange s) (m : Nat) : CountsInRange (accessEnd m s) := by
  have htaken : CountsInRange (accessEndAtAc (takeOutcome s)) :=
    (accessEndAtAc_taken (takeOutcome s)).counts (hs.of_le (by simp) (by simp))
  simp only [accessEnd]
  split
  · exact htaken
  · exact htaken
  all_goals exact htaken.of_le (by simp) (by simp)

theorem declareStuck_counts {s : State} (hs : CountsInRange s) : CountsInRange (declareStuck s) := by
  have hstation {u : State} (hu : CountsInRange u) : CountsInRange (stationAtStuck u) := by
    unfold stationAtStuck
    split
    · exact hu.of_le (by simp) (by simp)
    · exact ⟨by simp [RoundTracker.initial], by simpa using hu.2⟩
    all_goals exact hu
  refine hstation ?_
  exact hs.of_le (by simp) (by simp)

theorem LineChange.counts {s t : State} (h : LineChange s t) (hs : CountsInRange s) : CountsInRange t := by
  have hpass {u : State} (hu : u = s ∨ ∃ n, u = passTime n s) : CountsInRange u := by
    obtain rfl | ⟨n, rfl⟩ := hu
    · exact hs
    · exact hs.watches (passTime_watches n s)
  cases h with
  | time n => exact hpass (.inr ⟨n, rfl⟩)
  | level => exact hs
  | active n => exact (hpass (.inr ⟨n, rfl⟩)).watches (activeEvent_watches _)
  | candidate => exact hs.watches (candidateStep_watches _ s)
  | reading r => exact hs.watches (passReading_watches r s)
  | held => exact hs.of_le (by simp) (by simp)
  | quiet hu => exact (hpass hu).watches (quietEvent_watches _)
  | free hu => exact (hpass hu).watches (declareFree_watches _)
  | answer => exact hs.of_le (by simp [runTo]) (by simp [runTo])
  | echoPass => exact echoPass_counts hs _
  | echoMismatch n => exact echoMismatch_counts (hpass (.inr ⟨n, rfl⟩)) _
  | slotStart k => exact slotStart_counts hs k
  | frameStart => exact frameStart_counts hs _
  | roundEnd => exact endRound_counts hs
  | restDetected => exact wakeIfNeeded_counts (s := setStation .resync _) ⟨by simp, by simpa using hs.2⟩
  | holdOffExpired => exact wakeIfNeeded_counts (s := updatePeer _ _ _) (hs.of_le (by simp [runTo]) (by simp [runTo]))
  | guardComplete n => exact accessEnd_counts (hpass (.inr ⟨_, rfl⟩)) _
  | stuck => exact declareStuck_counts hs

/-! ### The missed broadcasts (R136) -/

/-- The missed-broadcast count stays in its range. -/
def MissedKept (s t : State) : Prop := s.re.missed ≤ 255 → t.re.missed ≤ 255

theorem MissedKept.of_eq {s t : State} (h : t.re.missed = s.re.missed) : MissedKept s t := fun hs => h ▸ hs

theorem MissedKept.trans {s t u : State} (h : MissedKept s t) (h' : MissedKept t u) : MissedKept s u := h' ∘ h

theorem storeFrame_missed (kind : RecordKind) (h : FrameHeader) (s : State) : MissedKept s (storeFrame kind h s) :=
  fun _ => by simp [storeFrame]

theorem receiveDecision_missed (good : Bool) (header : Header) (s : State) :
    MissedKept s (receiveDecision good header s) := by
  obtain ⟨u, hu, h⟩ := receiveDecision_cases good header s
  have hcleared : MissedKept u (setStaging none u) := .of_eq (by simp)
  rw [h]
  refine .trans ?_ hcleared
  cases hu with
  | none => exact id
  | direct f =>
    have heffect (code : AnswerCode) : MissedKept s (directEffect code f s) := by
      cases code with
      | accepted => exact storeFrame_missed .direct f s
      | full => exact .of_eq rfl
      | _ => exact id
    exact heffect _
  | probe f => exact .of_eq (by simp)
  | broadcast f =>
    unfold broadcastDecision
    split_ifs
    · exact id
    · exact id
    · exact fun _ => countUp_le _
    · exact storeFrame_missed .all f s

theorem candidateEnd_missed (s : State) : MissedKept s (candidateEnd s) := by
  have hquiet (u : State) : MissedKept u (quietDeframer u) := .of_eq (by simp)
  obtain h | h | ⟨f, h⟩ := candidateEnd_cases s <;> rw [h]
  · exact hquiet s
  · exact MissedKept.trans (.of_eq (truncatedEnd_staged s).missed) (hquiet _)
  · refine .trans ?_ (hquiet _)
    simp only [frameEnd]
    split_ifs
    all_goals
      refine .trans ?_ (receiveDecision_missed _ f _)
      exact .of_eq (by simp)

theorem quietEvent_missed (s : State) : MissedKept s (quietEvent s) := by
  unfold quietEvent
  split
  · rename_i b _
    have hend (u : State) : MissedKept u (burstEndAtAc b (windowAtBurstEnd b (windowAnswer s) u)) := .of_eq (by simp)
    refine .trans ?_ (hend _)
    split_ifs
    · exact MissedKept.trans (.of_eq (by simp)) (candidateEnd_missed (quietAtLi b s))
    · exact .of_eq (by simp)
  · exact id

theorem frameMismatch_staged (s : State) : Staged s (frameMismatch s) := by
  simp only [frameMismatch]
  split
  · exact .of_eq rfl
  · split_ifs
    all_goals
      split
      all_goals simp [Staged]

theorem echoMismatch_staged (x : Transmission) (s : State) : Staged s (echoMismatch x s) := by
  have hmarked : Staged s (markPartial (releaseDriver s)) := by simp [Staged, markPartial]
  unfold echoMismatch mismatchAtOwner
  refine hmarked.trans ?_
  split
  · split_ifs <;> exact .of_eq (by simp)
  · exact Staged.trans (.of_eq (by simp)) (frameMismatch_staged (setFramer .idle _))
  · exact .of_eq (by simp)

theorem frameStart_staged (c : OwnClaim) (s : State) : Staged s (frameStart c s) := by
  simp only [frameStart]
  split
  · simp only [sendFrame]
    split_ifs
    · exact .of_eq (by simp)
    · exact Staged.trans (.of_eq (by simp)) (frameMismatch_staged (setProgress .sent _))
  · exact .of_eq (by simp)

theorem AccessTaken.staged {s t : State} (h : AccessTaken s t) : Staged s t := by
  cases h <;> simp [Staged]

theorem accessEnd_staged (m : Nat) (s : State) : Staged s (accessEnd m s) := by
  have htaken : Staged s (accessEndAtAc (takeOutcome s)) :=
    Staged.trans (.of_eq (by simp)) (accessEndAtAc_taken (takeOutcome s)).staged
  obtain ⟨-, -, -, hre, -⟩ := accessEnd_keeps m s
  exact htaken.trans (.of_eq hre)

theorem declareStuck_staged (s : State) : Staged s (declareStuck s) := by
  have hstation (u : State) : Staged u (stationAtStuck u) := by
    unfold stationAtStuck
    split <;> simp [Staged]
  exact Staged.trans (.of_eq (by simp)) (hstation (onAccess _ (stuckNotices (onLi _ (passTime _ s)))))

theorem LineChange.missed {s t : State} (h : LineChange s t) : MissedKept s t := by
  have hpass {u : State} (hu : u = s ∨ ∃ n, u = passTime n s) : MissedKept s u := by
    obtain rfl | ⟨n, rfl⟩ := hu
    · exact id
    · exact .of_eq (by simp)
  cases h with
  | reading r => exact .of_eq (passReading_staged r s).missed
  | quiet hu => exact (hpass hu).trans (quietEvent_missed _)
  | free hu => exact (hpass hu).trans (MissedKept.trans (.of_eq (by simp)) (quietEvent_missed (raise .lineFree none none _)))
  | echoMismatch n => exact (hpass (.inr ⟨n, rfl⟩)).trans (.of_eq (echoMismatch_staged _ _).missed)
  | frameStart => exact .of_eq (frameStart_staged _ s).missed
  | guardComplete n => exact MissedKept.trans (.of_eq (by simp)) (.of_eq (accessEnd_staged _ (passTime (guardBits - n) s)).missed)
  | stuck => exact .of_eq (declareStuck_staged s).missed
  | _ => exact .of_eq (by simp)

/-! ### The host's side -/

/-- The host's side raises no notice: it takes one, or a reset empties the queue (R87, R88, R178). -/
theorem HostChange.notices {s t : State} (h : HostChange s t) :
    t.notices = s.notices ∨ t.notices = s.notices.drop 1 ∨ t.notices = [] := by
  cases h with
  | @decided c u t r data hu ht =>
    obtain ⟨-, -, -, -, -, -, -, hnotices, -⟩ := hu.frame
    have hkept : t.notices = u.notices := by cases ht <;> simp
    exact .inl (by simp [hkept, hnotices])
  | noticeTaken => exact .inr (.inl rfl)
  | restarted => exact .inr (.inr rfl)
  | hardReset => exact .inr (.inr rfl)
  | _ => exact .inl (by simp)

theorem HostChange.notices_subset {s t : State} (h : HostChange s t) : t.notices ⊆ s.notices := by
  obtain h | h | h := h.notices <;> rw [h]
  · exact List.Subset.refl _
  · exact List.drop_subset 1 _
  · exact List.nil_subset _

theorem HostChange.notices_length {s t : State} (h : HostChange s t) : t.notices.length ≤ s.notices.length := by
  obtain h | h | h := h.notices <;> simp [h]

/-- What keeps its range beside the notices (R14, R34, R73, R89, R91, R136). -/
structure InRange (s : State) : Prop where
  peers : PeersSound s
  missed : s.re.missed ≤ 255
  timer : s.li.stuckTimer ≤ stuckLimit
  counts : CountsInRange s

namespace InRange

theorem of_eq {s t : State} (hs : InRange s) (hp : t.peers = s.peers) (hre : t.re.missed = s.re.missed)
    (hli : t.li.stuckTimer = s.li.stuckTimer) (hac : t.ac = s.ac) : InRange t :=
  ⟨by rw [PeersSound, hp]; exact hs.peers, hre ▸ hs.missed, hli ▸ hs.timer, by rw [CountsInRange, hac]; exact hs.counts⟩

end InRange

theorem initialPeers_sound {s : State} (h : s.peers = Vector.replicate 32 PeerEntry.initial) : PeersSound s := by
  rw [peersSound_iff]
  intro a
  have hinitial : peerEntry s a = PeerEntry.initial := by
    by_cases ha : a < 32
    · simp [peerEntry, h, ha]
    · exact peerEntry_outside s (not_lt.mp ha)
  rw [hinitial]
  exact PeerEntry.initial_sound

theorem initialValues_inRange (setup : SetupRecord) (hp : HostPort) (s : State) : InRange (initialValues setup hp s) where
  peers := initialPeers_sound rfl
  missed := Nat.zero_le _
  timer := Nat.zero_le _
  counts := ⟨Nat.zero_le _, Nat.zero_le _⟩

theorem enterOffline_inRange {s : State} (hs : InRange s) : InRange (enterOffline s) where
  peers := (enterOffline_noted s).peers hs.peers
  missed := by simpa using hs.missed
  timer := by simp
  counts := ⟨by simp [RoundTracker.initial], by simpa using hs.counts.2⟩

theorem joinLine_inRange {s : State} (hs : InRange s) : InRange (joinLine s) where
  peers := initialPeers_sound (by simp [joinLine])
  missed := by simpa [joinLine] using hs.missed
  timer := by
    simp only [joinLine, beginSensing]
    split_ifs <;> simp
  counts := by
    simp only [joinLine, beginSensing]
    split_ifs <;> exact ⟨by simp [activeAtAc, RoundTracker.initial], by simp [activeAtAc]⟩

theorem Decision.inRange {c : Command} {s t : State} (h : Decision c s t) (hs : InRange s) : InRange t := by
  cases h with
  | reply => exact hs
  | setup r => exact ⟨hs.peers, hs.missed, hs.timer, hs.counts⟩
  | join => exact joinLine_inRange hs
  | leave =>
    obtain ⟨h, -⟩ | ⟨h, -⟩ | h := leaveLine_cases s <;> rw [h]
    · exact hs
    · exact ⟨hs.peers, hs.missed, hs.timer, hs.counts⟩
    · exact enterOffline_inRange hs
  | cancelWaiting =>
    exact ⟨(finishEntry_noted _ _ _ s).peers hs.peers, by simpa using hs.missed, by simpa using hs.timer, hs.counts.of_le (by simp) (by simp)⟩
  | gate a setting =>
    exact ⟨(Noted.updatePeer_of_same a (fun e => { e with gate := setting }) s fun _ => ⟨rfl, rfl⟩).peers hs.peers, hs.missed, hs.timer, hs.counts⟩
  | _ => exact hs.of_eq (by simp) (by simp) (by simp) (by simp)

theorem HostChange.inRange {s t : State} (h : HostChange s t) (hs : InRange s) : InRange t := by
  cases h with
  | @decided c u t r data hu ht =>
    obtain ⟨hli, -, hac, hpeers, -, hre, -⟩ := hu.frame
    exact (ht.inRange (hs.of_eq (t := u) hpeers (by rw [hre]) (by rw [hli]) hac)).of_eq (by simp) (by simp) (by simp) (by simp)
  | @submitted o =>
    have hjoined : InRange (endSubmit o s) := by
      simp only [endSubmit]
      split_ifs
      · have hqueued : InRange (onTe (fun t => { t with queue := t.queue ++ [o.entry] })
            (onHp (fun h => { h with submit := none }) s)) := hs.of_eq (by simp) (by simp) (by simp) (by simp)
        exact ⟨by simpa [PeersSound] using hs.peers, by simpa using hs.missed, wakeIfNeeded_timer _ hqueued.timer,
          wakeIfNeeded_counts hqueued.counts⟩
      · exact hs.of_eq (by simp) (by simp) (by simp) (by simp)
    exact hjoined.of_eq (by simp) (by simp) (by simp) (by simp)
  | restarted => exact (initialValues_inRange _ _ s).of_eq (t := closeTransaction (stationReset s)) rfl rfl rfl rfl
  | hardReset => exact (initialValues_inRange SetupRecord.initial s.hp s).of_eq (t := hardResetState s) rfl rfl rfl rfl
  | _ => exact hs.of_eq (by simp) (by simp) (by simp) (by simp)

theorem Change.inRange {s t : State} (h : Change s t) (hs : InRange s) : InRange t := by
  cases h with
  | nothing => exact hs
  | host h => exact h.inRange hs
  | line h => exact ⟨h.noted.peers hs.peers, h.missed hs.missed, h.timer hs.timer, h.counts hs.counts⟩

theorem Change.notices_length {s t : State} (h : Change s t) (hs : s.notices.length ≤ 16) : t.notices.length ≤ 16 := by
  cases h with
  | nothing => exact hs
  | host h => exact h.notices_length.trans hs
  | line h => exact h.noted.notices.length hs

theorem Change.notices_counts {s t : State} (h : Change s t) (hs : ∀ r ∈ s.notices, r.repeats ≤ 255 ∧ r.lostAfter ≤ 255) :
    ∀ r ∈ t.notices, r.repeats ≤ 255 ∧ r.lostAfter ≤ 255 := by
  cases h with
  | nothing => exact hs
  | host h => exact fun r hr => hs r (h.notices_subset hr)
  | line h => exact h.noted.notices.counts hs

end Sys2Proof.Machine
end

section
/-! The deframer and the burst it reads (chapters 01 and 02), and the capacities and ranges over every step. -/

namespace Sys2Proof.Machine

/-! ### The burst under way -/

/-- The line is driven, sensed ACTIVE or STUCK. -/
def onDrivenLine (s : State) : Prop := s.li.sensing = .active ∨ s.li.sensing = .stuck

theorem passesReadings_eq (s : State) : passesReadings s = s.li.burst.any fun b => b.candidate && !b.isPartial := by
  unfold passesReadings
  cases s.li.burst <;> rfl

theorem deframerFollowsCandidate_iff (s : State) : DeframerFollowsCandidate s ↔
    (s.fu.deframer.phase = .quiet ∨ onDrivenLine s ∧ passesReadings s = true) := by
  rw [passesReadings_eq, DeframerFollowsCandidate, onDrivenLine]
  tauto

/-- The deframer is in QUIET, or it is as it was and so is the burst that it follows. -/
def Follows (s t : State) : Prop :=
  t.fu.deframer.phase = .quiet ∨
    t.fu.deframer = s.fu.deframer ∧ (onDrivenLine s → onDrivenLine t) ∧ passesReadings t = passesReadings s

namespace Follows

theorem of_eq {s t : State} (hfu : t.fu.deframer = s.fu.deframer) (hsensing : t.li.sensing = s.li.sensing)
    (hburst : passesReadings t = passesReadings s) : Follows s t :=
  .inr ⟨hfu, by simp [onDrivenLine, hsensing], hburst⟩

theorem of_li {s t : State} (hfu : t.fu.deframer = s.fu.deframer) (hli : t.li = s.li) : Follows s t :=
  of_eq hfu (by rw [hli]) (by simp only [passesReadings, hli])

theorem refl (s : State) : Follows s s := of_li rfl rfl

theorem trans {s t u : State} (h : Follows s t) (h' : Follows t u) : Follows s u := by
  obtain h' | ⟨hfu', hline', hburst'⟩ := h'
  · exact .inl h'
  · obtain h | ⟨hfu, hline, hburst⟩ := h
    · exact .inl (by rw [hfu', h])
    · exact .inr ⟨hfu'.trans hfu, hline' ∘ hline, hburst'.trans hburst⟩

theorem sound {s t : State} (h : Follows s t) (hs : DeframerFollowsCandidate s) : DeframerFollowsCandidate t := by
  rw [deframerFollowsCandidate_iff] at hs ⊢
  obtain h | ⟨hfu, hline, hburst⟩ := h
  · exact .inl h
  · rw [hfu, hburst]
    exact hs.imp_right fun ⟨hdriven, hpasses⟩ => ⟨hline hdriven, hpasses⟩

end Follows

/-- A burst mapped by what keeps its two marks is read as before. -/
theorem passesReadings_map {s t : State} {f : Burst → Burst} (h : t.li.burst = s.li.burst.map f)
    (hf : ∀ b, (f b).candidate = b.candidate ∧ (f b).isPartial = b.isPartial) :
    passesReadings t = passesReadings s := by
  rw [passesReadings_eq, passesReadings_eq, h]
  cases s.li.burst with
  | none => rfl
  | some b =>
    obtain ⟨hcandidate, hpartial⟩ := hf b
    simp [hcandidate, hpartial]

theorem passTime_passesReadings (n : Nat) (s : State) : passesReadings (passTime n s) = passesReadings s := by
  unfold passTime
  split
  · rfl
  · rfl
  · exact passesReadings_map (f := Burst.lengthen n) rfl fun _ => ⟨rfl, rfl⟩
  · exact passesReadings_map (f := Burst.lengthen n) rfl fun _ => ⟨rfl, rfl⟩

theorem passTime_follows (n : Nat) (s : State) : Follows s (passTime n s) :=
  .of_eq (by simp) (by simp) (passTime_passesReadings n s)

theorem startTransmission_follows (o : Owner) (symbols : List Bool) (s : State) :
    Follows s (startTransmission o symbols s) :=
  .of_eq (by simp) (by simp) (passesReadings_map (f := Burst.drivenFrom s.li.time) rfl fun _ => ⟨rfl, rfl⟩)

theorem runTo_follows (n : Nat) (s : State) : Follows s (runTo n s) := passTime_follows _ s

theorem setFramer_follows (x : Framer) (s : State) : Follows s (setFramer x s) := .of_li (by simp) (by simp)

theorem halt_follows (s : State) : Follows s (halt s) := .inl (by simp [FrameUnit.initial, Deframer.initial])

theorem enterOffline_follows (s : State) : Follows s (enterOffline s) := .inl (by simp [FrameUnit.initial, Deframer.initial])

theorem takeOutcome_deframer (s : State) : (takeOutcome s).fu.deframer = s.fu.deframer := by
  simp only [takeOutcome, setWindow_fu]
  split
  · split <;> simp
  · rfl

theorem windowAtBurstEnd_deframer (b : Burst) (answer : Option AnswerCode) (s : State) :
    (windowAtBurstEnd b answer s).fu.deframer = s.fu.deframer := by
  unfold windowAtBurstEnd judgeWindow
  split
  · split_ifs
    · simp
    · rfl
    · split <;> simp
  · rfl
  · rfl

/-! ### Readings and quiet events -/

theorem passReading_line (r : Reading) (s : State) :
    (passReading r s).li.sensing = s.li.sensing ∧ passesReadings (passReading r s) = passesReadings s := by
  have hhand (u : State) : passesReadings (handReading u) = passesReadings u :=
    (passTime_passesReadings _ (onLi _ u)).trans (passesReadings_map (f := fun b => { b with handed := b.handed + 1 }) rfl fun _ => ⟨rfl, rfl⟩)
  have hstep (r : Reading) (u : State) : passesReadings (readingStep r u) = passesReadings u := by
    refine Eq.trans ?_ (hhand u)
    simp [passesReadings, readingStep]
  have hheld : passesReadings (passHeld s) = passesReadings s := by
    unfold passHeld
    split_ifs
    · exact (hstep _ _).trans (passesReadings_map (f := fun b => { b with held := false }) rfl fun _ => ⟨rfl, rfl⟩)
    · rfl
  exact ⟨passReading_sensing r s, (hstep r _).trans hheld⟩

theorem takeReading_of_quiet (r : Reading) {s : State} (h : s.fu.deframer.phase = .quiet) : takeReading r s = s := by
  simp [takeReading, h]

theorem passReading_of_quiet (r : Reading) {s : State} (h : s.fu.deframer.phase = .quiet) :
    (passReading r s).fu.deframer.phase = .quiet := by
  have hstep (r : Reading) (u : State) (hu : u.fu.deframer.phase = .quiet) : (readingStep r u).fu.deframer.phase = .quiet := by
    have hhand : (handReading u).fu.deframer.phase = .quiet := by simpa using hu
    rw [readingStep, takeReading_of_quiet r hhand, hhand]
  refine hstep r _ ?_
  unfold passHeld
  split_ifs
  · exact hstep _ _ (by simpa using h)
  · exact h

theorem passReading_sound (r : Reading) {s : State} (hs : DeframerFollowsCandidate s) :
    DeframerFollowsCandidate (passReading r s) := by
  obtain ⟨hsensing, hpasses⟩ := passReading_line r s
  rw [deframerFollowsCandidate_iff] at hs ⊢
  obtain hquiet | ⟨hdriven, h⟩ := hs
  · exact .inl (passReading_of_quiet r hquiet)
  · exact .inr ⟨by simpa [onDrivenLine, hsensing] using hdriven, hpasses.trans h⟩

theorem candidateEnd_quiet (s : State) : (candidateEnd s).fu.deframer = Deframer.initial := by
  obtain h | h | ⟨f, h⟩ := candidateEnd_cases s <;> rw [h] <;> simp

/-- After the quiet event the deframer is in QUIET: its candidate has ended, or the burst was none (R7, R23). -/
theorem quietEvent_sound {s : State} (hs : DeframerFollowsCandidate s) : DeframerFollowsCandidate (quietEvent s) := by
  rw [deframerFollowsCandidate_iff] at hs
  unfold quietEvent
  split
  case h_1 b hb =>
    refine Follows.sound (s := s) (.inl ?_) ((deframerFollowsCandidate_iff s).mpr hs)
    simp only [burstEnd, burstEndAtAc_frame, windowAtBurstEnd_deframer]
    split_ifs with hcandidate
    · rw [candidateEnd_quiet]
      rfl
    · rw [(quietAtLi_frame b s).1]
      refine hs.resolve_right fun ⟨_, hpasses⟩ => hcandidate ?_
      simpa [passesReadings, hb] using hpasses
  case h_2 => exact (deframerFollowsCandidate_iff s).mpr hs

/-! ### Every change -/

theorem wakeIfNeeded_follows (s : State) : Follows s (wakeIfNeeded s) := by
  simp only [wakeIfNeeded]
  split_ifs
  · exact .of_li (by simp) (by simp)
  · exact Follows.trans (.of_li (by simp) (by simp)) (startTransmission_follows _ _ (setClaim _ s))
  · exact .refl s

theorem frameMismatch_follows (s : State) : Follows s (frameMismatch s) := by
  simp only [frameMismatch]
  split
  · exact .refl s
  · split_ifs
    · exact .inl (by simp [FrameUnit.initial, Deframer.initial])
    all_goals refine .of_li ?_ ?_ <;> split <;> simp

theorem AccessTaken.follows {s t : State} (h : AccessTaken s t) : Follows s t := by
  cases h with
  | kept => exact .refl s
  | halted => exact halt_follows s
  | left => exact enterOffline_follows s
  | _ => exact .of_li (by simp) (by simp)

theorem finishTransmission_follows (x : Transmission) (s : State) : Follows s (finishTransmission x s) := by
  have hfinish (u : State) (m : Nat) : Follows u (releaseDriver (onLi (fun l => { l with time := m }) u)) :=
    .of_eq rfl rfl rfl
  simp only [finishTransmission]
  refine .trans ?_ (hfinish _ _)
  split
  · exact passTime_follows _ s
  · exact .refl s

theorem echoPass_follows (x : Transmission) (s : State) : Follows s (echoPass x s) := by
  refine (finishTransmission_follows x s).trans ?_
  simp only [echoPass]
  split
  · exact .of_li (by simp) (by simp)
  · split
    · refine .of_li ?_ ?_
      · simp only [framePassed]
        repeat' split
        all_goals simp
      · simp
    · exact .refl _
  · exact .of_li (by simp) (by simp)

theorem slotStart_follows (k : Nat) (s : State) : Follows s (slotStart k s) := by
  have hstart : Follows s (onTracker (fun t => { t with slotTaken := true }) (runTo (slotStartTime s k) s)) :=
    (runTo_follows (slotStartTime s k) s).trans (.of_li (by simp) (by simp))
  simp only [slotStart]
  split
  · refine hstart.trans ?_
    simp only [claimSlot]
    split_ifs
    · exact .of_li (by simp) (by simp)
    · exact Follows.trans (.of_li (by simp) (by simp)) (startTransmission_follows _ _ (setClaim _ _))
  · exact hstart

theorem frameStart_follows (c : OwnClaim) (s : State) : Follows s (frameStart c s) := by
  have hrun : Follows s (runTo (c.markedAt + s.ac.setup.slot) s) := passTime_follows _ s
  simp only [frameStart]
  split
  · refine hrun.trans ?_
    simp only [sendFrame]
    split_ifs
    · refine .trans ?_ (setFramer_follows _ _)
      exact Follows.trans (.of_li (by simp) (by simp)) (startTransmission_follows _ _ (setProgress .sent _))
    · exact Follows.trans (.of_li (by simp) (by simp)) (frameMismatch_follows (setProgress .sent _))
  · exact hrun

theorem endRound_follows (s : State) : Follows s (endRound s) := by
  have hrun : Follows s (runTo (roundEndTime s) s) := passTime_follows _ s
  simp only [endRound]
  split_ifs
  · exact hrun.trans (.of_li (by simp) (by simp))
  · exact (hrun.trans (.of_li (by simp) (by simp))).trans (wakeIfNeeded_follows (onTracker _ _))

theorem sendAnswer_follows (a : Answer) (s : State) : Follows s (sendAnswer a s) := by
  unfold sendAnswer
  split_ifs
  · exact .of_li (by simp) (by simp)
  · exact (startTransmission_follows _ _ s).trans (setFramer_follows _ _)

theorem concludeRest_follows (s : State) : Follows s (concludeRest s) := by
  have hrest (u : State) : Follows u (setStation .resync (onTracker (fun t => { t with phase := .rest, unclaimed := 8 }) u)) :=
    .of_li (by simp) (by simp)
  exact ((passTime_follows _ s).trans (hrest _)).trans (wakeIfNeeded_follows _)

theorem expireHoldOff_follows (a expiry : Nat) (s : State) : Follows s (expireHoldOff a expiry s) := by
  have hexpired (u : State) : Follows u (updatePeer a (fun e => { e with holdOff := none }) u) := .of_li (by simp) (by simp)
  exact ((runTo_follows expiry s).trans (hexpired _)).trans (wakeIfNeeded_follows _)

/-- An echo mismatch ends the candidate of the burst (R11, R23). -/
theorem echoMismatch_quiet (x : Transmission) (s : State) : (echoMismatch x s).fu.deframer.phase = .quiet := by
  have hmarked : (markPartial (releaseDriver s)).fu.deframer.phase = .quiet := rfl
  unfold echoMismatch mismatchAtOwner
  split
  · split_ifs
    · simpa using hmarked
    · exact hmarked
  · obtain h | ⟨h, -⟩ := frameMismatch_follows (setFramer .idle (markPartial (releaseDriver s)))
    · exact h
    · rw [h]
      exact hmarked
  · exact hmarked

theorem accessEnd_follows (m : Nat) (s : State) : Follows s (accessEnd m s) := by
  have htaken : Follows s (takeOutcome s) := .of_li (takeOutcome_deframer s) (by simp)
  obtain ⟨hli, hfu, -⟩ := accessEnd_keeps m s
  exact (htaken.trans (accessEndAtAc_taken _).follows).trans (.of_li (by rw [hfu]) hli)

theorem declareStuck_follows (s : State) : Follows s (declareStuck s) := by
  have hstation (u : State) : Follows u (stationAtStuck u) := by
    unfold stationAtStuck
    split
    case h_2 => exact enterOffline_follows u
    case h_1 => exact .of_li (by simp) (by simp)
    all_goals exact .refl u
  have hnotices (u : State) : (stuckNotices u).fu.deframer = u.fu.deframer := by
    unfold stuckNotices
    split_ifs <;> simp [takeOutcome_deframer]
  have hstuck (u : State) : Follows u (onLi (fun l => { l with sensing := .stuck }) u) :=
    .inr ⟨rfl, fun _ => .inr rfl, rfl⟩
  have hempty (u : State) : Follows u (onAccess (fun _ => AccessRecord.empty) (stuckNotices u)) :=
    .of_li (hnotices u) (by simp)
  exact (((passTime_follows _ s).trans (hstuck _)).trans (hempty _)).trans (hstation _)

/-- A burst that becomes a candidate is one that is handed to the deframer (R6, R23). -/
theorem candidateStep_sound {b : Burst} {s : State} (h : s.li.sensing = .active) (hb : s.li.burst = some b)
    (hpartial : b.isPartial = false) : DeframerFollowsCandidate (candidateStep b s) := by
  obtain ⟨b', hb', hpartial'⟩ : ∃ b', (burstTo 6 s).li.burst = some b' ∧ b'.isPartial = false := by
    refine ⟨Burst.lengthen (6 - b.length) b, ?_, hpartial⟩
    simp [burstTo, passTime, h, passDriven, hb]
  rw [deframerFollowsCandidate_iff]
  refine .inr ⟨.inl (by simp [candidateStep, burstTo, h]), ?_⟩
  simp [passesReadings, candidateStep, hb', hpartial']

theorem LineChange.deframer {s t : State} (h : LineChange s t) (hs : DeframerFollowsCandidate s) :
    DeframerFollowsCandidate t := by
  have hpass {u : State} (hu : u = s ∨ ∃ n, u = passTime n s) : DeframerFollowsCandidate u := by
    obtain rfl | ⟨n, rfl⟩ := hu
    · exact hs
    · exact (passTime_follows n s).sound hs
  cases h with
  | time n => exact (passTime_follows n s).sound hs
  | level => exact (Follows.of_eq rfl rfl rfl).sound hs
  | active n hquiet =>
    rw [deframerFollowsCandidate_iff] at hs
    have hidle : s.fu.deframer.phase = .quiet := hs.resolve_right fun ⟨hdriven, _⟩ => by simp [onDrivenLine, hquiet] at hdriven
    exact (deframerFollowsCandidate_iff _).mpr (.inl (by simpa using hidle))
  | candidate h hb hpartial => exact candidateStep_sound h hb hpartial
  | reading r => exact passReading_sound r hs
  | held => exact (Follows.of_eq (by simp) (by simp) (passesReadings_map (f := fun b => { b with held := true }) rfl fun _ => ⟨rfl, rfl⟩)).sound hs
  | quiet hu => exact quietEvent_sound (hpass hu)
  | free hu =>
    have hraised (u : State) : Follows u (raise .lineFree none none u) := .of_li (by simp) (by simp)
    exact quietEvent_sound ((hraised _).sound (hpass hu))
  | answer => exact (sendAnswer_follows _ _).sound ((passTime_follows _ s).sound hs)
  | echoPass => exact (echoPass_follows _ s).sound hs
  | echoMismatch n => exact Follows.sound (s := s) (.inl (echoMismatch_quiet _ _)) hs
  | slotStart k => exact (slotStart_follows k s).sound hs
  | frameStart => exact (frameStart_follows _ s).sound hs
  | roundEnd => exact (endRound_follows s).sound hs
  | restDetected => exact (concludeRest_follows s).sound hs
  | holdOffExpired => exact (expireHoldOff_follows _ _ s).sound hs
  | guardComplete n => exact (accessEnd_follows _ _).sound ((passTime_follows _ s).sound hs)
  | stuck => exact (declareStuck_follows s).sound hs

theorem Decision.follows {c : Command} {s t : State} (h : Decision c s t) : Follows s t := by
  cases h with
  | reply => exact .refl s
  | setup r => exact .of_li (by simp) (by simp)
  | join =>
    refine .inl ?_
    simp [joinLine, FrameUnit.initial, Deframer.initial]
  | leave =>
    obtain ⟨h, -⟩ | ⟨h, -⟩ | h := leaveLine_cases s <;> rw [h]
    · exact .refl s
    · exact .of_li (by simp) (by simp)
    · exact enterOffline_follows s
  | _ => exact .of_li (by simp) (by simp)

theorem HostChange.follows {s t : State} (h : HostChange s t) : Follows s t := by
  cases h with
  | @decided c u t r data hu ht =>
    obtain ⟨hli, hfu, -⟩ := hu.frame
    exact (Follows.trans (t := u) (.of_li (by rw [hfu]) hli) ht.follows).trans (.of_li (by simp) (by simp))
  | @submitted o =>
    have hclosed (u : State) : Follows u (closeTransaction u) := .of_li (by simp) (by simp)
    refine .trans ?_ (hclosed _)
    simp only [endSubmit]
    split_ifs
    · exact Follows.trans (.of_li (by simp) (by simp)) (wakeIfNeeded_follows (onTe _ _))
    · exact .of_li (by simp) (by simp)
  | restarted => exact .inl rfl
  | hardReset => exact .inl rfl
  | hardResetEnd => exact .of_li rfl rfl
  | _ => exact .of_li (by simp) (by simp)

theorem Change.deframer {s t : State} (h : Change s t) (hs : DeframerFollowsCandidate s) : DeframerFollowsCandidate t := by
  cases h with
  | nothing => exact hs
  | host h => exact h.follows.sound hs
  | line h => exact h.deframer hs

/-- Settles O56: the holdings fit as blocks change hands; a notice raised finds its place, and every count stays where it
saturates; the deframer goes back to QUIET wherever its candidate ends. -/
theorem stepsKeepCapacitiesAndCounts : Obligations.StepsKeepCapacitiesAndCounts := by
  refine ⟨fun s t hs hstep => ?capacities, fun s t hs hstep => ?ranges, fun s t hs hstep => ?deframer⟩
  case capacities =>
    obtain ⟨hframed, hshared, hring, hnotices⟩ := hs
    obtain ⟨rest, hchange⟩ := change_of_step hstep
    have hfits := (hchange.moved hframed).keeps (fun _ _ hmove => hmove.fits) ((holdings_fits_iff _).mpr ⟨hshared, hring⟩)
    obtain ⟨hshared', hring'⟩ := (holdings_fits_iff t).mp hfits
    exact ⟨hchange.submitFramed hframed, hshared', hring', hchange.notices_length hnotices⟩
  case ranges =>
    obtain ⟨⟨hmissed, hnotices⟩, ⟨htimer, hunclaimed, hcollisions⟩, hpeers⟩ := hs
    obtain ⟨rest, hchange⟩ := change_of_step hstep
    obtain ⟨hpeers', hmissed', htimer', hunclaimed', hcollisions'⟩ :=
      hchange.inRange ⟨hpeers, hmissed, htimer, hunclaimed, hcollisions⟩
    exact ⟨⟨hmissed', hchange.notices_counts hnotices⟩, ⟨htimer', hunclaimed', hcollisions'⟩, hpeers'⟩
  case deframer =>
    obtain ⟨rest, hchange⟩ := change_of_step hstep
    exact hchange.deframer hs

end Sys2Proof.Machine
end

section
/-! The framing of a transaction (chapter 10): the summary byte at SEL low, the byte that brings a decision, the stream, and
the end at SEL high. -/

namespace Sys2Proof.Machine

/-! ### SEL low (R155) -/

/-- The summary byte is the station state in three bits, and a bit for each of five flags (R155, R183). -/
theorem summaryBits_toNat (st : StationState) (c r n l a : Bool) :
    ((st.code <<< 5) ||| (flagByte c <<< 4) ||| (flagByte r <<< 3) ||| (flagByte n <<< 2) ||| (flagByte l <<< 1)
      ||| flagByte a).toNat =
      32 * st.code.toNat + 16 * c.toNat + 8 * r.toNat + 4 * n.toNat + 2 * l.toNat + a.toNat := by
  cases st <;> revert c r n l a <;> decide

theorem ite_eq_mul_toNat {p : Prop} [Decidable p] {b : Bool} (h : b = true ↔ ¬p) (k : Nat) :
    (if p then 0 else k) = k * b.toNat := by
  by_cases hp : p
  · have hb : b = false := by simpa [hp] using h
    simp [hp, hb]
  · have hb : b = true := h.mpr hp
    simp [hp, hb]

theorem summaryByte_toNat (s : State) : (summaryByte s).toNat = 32 * s.ac.station.code.toNat
    + (if s.te.completions = [] then 0 else 16) + (if s.re.ring = [] then 0 else 8) + (if s.notices = [] then 0 else 4)
    + (if s.li.sensing = .stuck then 2 else 0)
    + (if (s.hp.mask.completions = true ∧ s.te.completions ≠ []) ∨ (s.hp.mask.receptions = true ∧ s.re.ring ≠ [])
        ∨ (s.hp.mask.notices = true ∧ s.notices ≠ []) then 1 else 0) := by
  have hstuck : lineStuck s = true ↔ s.li.sensing = .stuck := by simp [lineStuck]
  have hattention := attention_iff s
  rw [summaryByte, summaryBits_toNat, ite_eq_mul_toNat completionPending_iff, ite_eq_mul_toNat receivePending_iff,
    ite_eq_mul_toNat noticePending_iff]
  congr 1
  · congr 1
    by_cases h : s.li.sensing = .stuck
    · rw [if_pos h, hstuck.mpr h]; rfl
    · rw [if_neg h, Bool.eq_false_iff.mpr (mt hstuck.mp h)]; rfl
  · by_cases h : attention s = true
    · rw [if_pos (hattention.mp h), h]; rfl
    · rw [if_neg (mt hattention.mpr h), Bool.eq_false_iff.mpr h]; rfl

/-- Settles O7: held in reset SEL low drops the transaction; otherwise it fixes the summary byte, whose bits are disjoint. -/
theorem selLowFixesSummaryByte : Obligations.SelLowFixesSummaryByte := by
  intro s hidle
  have hbegin : exec .selLow s = .next (beginTransaction s) := congrArg Host.Outcome.next (if_pos (by simp [hidle]))
  rw [hbegin]
  refine ⟨fun hheld => ?dropped, fun hheld => ⟨summaryByte s, ?command, ?value⟩⟩
  case dropped => exact congrArg Host.Outcome.next (if_pos hheld)
  case command => exact congrArg Host.Outcome.next (if_neg (by simp [hheld]))
  case value =>
    rw [summaryByte_toNat]
    cases s.ac.station <;> rfl

/-! ### A received byte, by transaction state (R154) -/

theorem exec_byteReceived (b : Byte) (s : State) : exec (.byteReceived b) s = .next (receiveByte b s) := rfl

theorem receiveByte_of_command {s : State} (h : s.hp.transaction = .command) (b : Byte) :
    receiveByte b s = receiveCommand b s := by
  rw [receiveByte, h]

theorem receiveByte_of_parameters {s : State} (h : s.hp.transaction = .parameters) (b : Byte) :
    receiveByte b s = receiveParameter b s := by
  rw [receiveByte, h]

theorem receiveByte_of_decided {s : State} (h : s.hp.transaction = .decided) (b : Byte) :
    receiveByte b s = receiveDecided b s := by
  rw [receiveByte, h]

theorem receiveByte_of_dropped {s : State} (h : s.hp.transaction = .dropped) (b : Byte) :
    receiveByte b s = onHp (fun hp => { hp with sdo := some 0 }) s := by
  rw [receiveByte, h]

theorem receiveByte_of_idle {s : State} (h : s.hp.transaction = .idle) (b : Byte) : receiveByte b s = s := by
  rw [receiveByte, h]

/-! ### The byte that brings a decision (R156) -/

/-- Each command without parameters is decided at its command byte. -/
theorem exec_of_awaitsCommand {s : State} (h : awaitsCommand s = true) :
    exec .status s = .next (decide_ .status (takeCommand (some .status) s)) ∧
    exec .join s = .next (decide_ .join (takeCommand (some .join) s)) ∧
    exec .leave s = .next (decide_ .leave (takeCommand (some .leave) s)) ∧
    exec .restart s = .next (decide_ .restart (takeCommand (some .restart) s)) ∧
    exec .takeCompletion s = .next (decide_ .takeCompletion (takeCommand (some .takeCompletion) s)) ∧
    exec .fetch s = .next (decide_ .fetch (takeCommand (some .fetch) s)) ∧
    exec .takeNotice s = .next (decide_ .takeNotice (takeCommand (some .takeNotice) s)) := by
  refine ⟨?_, ?_, ?_, ?_, ?_, ?_, ?_⟩
  all_goals exact congrArg Host.Outcome.next (if_pos h)

theorem commandOf_eq_none {b : Byte}
    (h : b ∉ [(0x01 : Byte), 0x02, 0x03, 0x04, 0x05, 0x10, 0x11, 0x12, 0x20, 0x21, 0x30, 0x40, 0x41, 0x42, 0x50]) :
    commandOf b = none := by
  simp only [List.mem_cons, List.not_mem_nil, or_false, not_or] at h
  obtain ⟨h1, h2, h3, h4, h5, h6, h7, h8, h9, h10, h11, h12, h13, h14, h15⟩ := h
  rw [commandOf, if_neg h1, if_neg h2, if_neg h3, if_neg h4, if_neg h5, if_neg h6, if_neg h7, if_neg h8, if_neg h9,
    if_neg h10, if_neg h11, if_neg h12, if_neg h13, if_neg h14, if_neg h15]

/-- Settles O8: by the command that the byte names and its parameter count. -/
theorem commandByteSelectsCommand : Obligations.CommandByteSelectsCommand := by
  intro s htransaction
  have hawaits : awaitsCommand s = true := awaitsCommand_iff.mpr htransaction
  have hbyte {b : Byte} {c : Command} := exec_byteReceived_of_awaitsCommand (b := b) (c := c) hawaits
  obtain ⟨hstatus, hjoin, hleave, hrestart, hcompletion, hfetch, hnotice⟩ := exec_of_awaitsCommand hawaits
  refine ⟨?_, ?_, ?_, ?_, ?_, ?_, ?_, ?_, ?_, fun p hp => ?parameters, fun b hb => ?unknown⟩
  · rw [hbyte (c := .status) (by decide) rfl, hstatus]
  · rw [hbyte (c := .join) (by decide) rfl, hjoin]
  · rw [hbyte (c := .leave) (by decide) rfl, hleave]
  · rw [hbyte (c := .restart) (by decide) rfl, hrestart]
  · rw [hbyte (c := .takeCompletion) (by decide) rfl, hcompletion]
  · rw [hbyte (c := .fetch) (by decide) rfl, hfetch]
  · rw [hbyte (c := .release) (by decide) rfl, exec_release_of_awaitsCommand hawaits]; rfl
  · rw [hbyte (c := .takeNotice) (by decide) rfl, hnotice]
  · rw [hbyte (c := .readOrder) (by decide) rfl, exec_readOrder_of_awaitsCommand hawaits]; rfl
  case parameters =>
    have hcode : commandOf p.1 = some p.2 ∧ p.2.parameterCount ≠ 0 := by
      revert p
      decide
    exact exec_byteReceived_opens_parameters hawaits hcode.1 hcode.2
  case unknown =>
    have hnone := commandOf_eq_none hb
    have hunknown : exec (.unknownCommand b) s = .next { s with hp := s.hp.answered none .unknownCommand [] } :=
      congrArg Host.Outcome.next (if_pos (by simp [hawaits, hnone]))
    refine ⟨?_, hunknown⟩
    rw [hunknown, exec_byteReceived, receiveByte_of_command htransaction, receiveCommand, hnone, respond_takeCommand]

/-- A parameter byte that is not the last is kept, and a 0 goes out (R156). -/
theorem exec_byteReceived_of_parameter {c : Command} {s : State} (htransaction : s.hp.transaction = .parameters)
    (hcommand : s.hp.command = some c) (hmore : s.hp.parameters.length + 1 < c.parameterCount) (b : Byte) :
    exec (.byteReceived b) s =
      .next { s with hp := { s.hp with parameters := s.hp.parameters ++ [b], sdo := some 0 } } := by
  have hnot : ¬c.parameterCount ≤ (takeParameter b s).hp.parameters.length := by simpa using hmore
  rw [exec_byteReceived, receiveByte_of_parameters htransaction, receiveParameter, hcommand]
  exact congrArg Host.Outcome.next (if_neg hnot)

/-- Settles O9: by the command and the number of its parameters received. -/
theorem lastParameterBringsDecision : Obligations.LastParameterBringsDecision := by
  intro b s htransaction
  have hlast {c : Command} (hcommand : s.hp.command = some c) (hcount : s.hp.parameters.length + 1 = c.parameterCount) :
      awaitsLast c s = true := awaitsLast_iff.mpr ⟨htransaction, hcommand, hcount⟩
  refine ⟨fun hc hn => ?_, fun hc hn => ?_, fun hc hn => ?_, fun hc hn => ?_, fun hc hn => ?_, fun hc hn => ?_,
    fun p hp hc hmore => ?more⟩
  case more =>
    have hcount : p.2 = p.1.parameterCount := by
      clear hc hmore
      revert p
      decide
    exact exec_byteReceived_of_parameter htransaction hc (hcount ▸ hmore) b
  all_goals
    have hawaits := hlast hc (by rw [hn]; rfl)
    rw [exec_byteReceived_of_awaitsLast hawaits]
    exact (congrArg Host.Outcome.next (if_pos hawaits)).symm

/-! ### Bytes after the decision (R157, R164) -/

theorem clockStream_of_stream {s : State} {o : OutStream} (h : s.hp.stream = some o) :
    clockStream s = { s with hp := { s.hp with
      sdo := some ((o.reply.code :: o.data).getD o.clocked 0)
      stream := some { o with clocked := if o.clocked ≤ o.data.length then o.clocked + 1 else o.clocked } } } := by
  have hadvance : o.advance = { o with clocked := if o.clocked ≤ o.data.length then o.clocked + 1 else o.clocked } := by
    simp [OutStream.advance, OutStream.bytes]
  have hnext : nextOut s.hp = (o.reply.code :: o.data).getD o.clocked 0 := by
    rw [nextOut, h]
    rfl
  rw [← hadvance, ← hnext]
  simp [clockStream, onHp, h]

theorem awaitsPayload_iff {s : State} : awaitsPayload s = true ↔
    s.hp.transaction = .decided ∧ ∃ q, s.hp.submit = some q ∧ q.received.length < q.length := by
  simp [awaitsPayload, Option.any_eq_true]

/-- Settles O10: by the transaction state, and in DECIDED by whether an open SUBMIT still awaits payload. -/
theorem bytesAfterDecisionClockStream : Obligations.BytesAfterDecisionClockStream := by
  refine fun b s => ⟨fun hdecided o hstream => ⟨fun q hq hmore => ?payload, fun hnone => ?stream⟩, fun hdropped => ?dropped,
    fun hidle => ?idle⟩
  case payload =>
    have hawaits : awaitsPayload s = true := awaitsPayload_iff.mpr ⟨hdecided, q, hq, hmore⟩
    have htaken : exec (.submitPayloadByte b) s = .next (takePayload b (clockStream s)) :=
      congrArg Host.Outcome.next (if_pos hawaits)
    refine ⟨?_, ?_⟩
    · rw [htaken, exec_byteReceived, receiveByte_of_decided hdecided, receiveDecided, if_pos hawaits]
    · rw [htaken, clockStream_of_stream hstream]
      simp [takePayload, onHp, hq]
  case stream =>
    have hawaits : ¬awaitsPayload s = true := by
      rw [awaitsPayload_iff]
      rintro ⟨-, q, hq, hmore⟩
      exact absurd hmore (hnone q hq).not_gt
    rw [exec_byteReceived, receiveByte_of_decided hdecided, receiveDecided, if_neg hawaits, clockStream_of_stream hstream]
  case dropped => exact congrArg Host.Outcome.next (receiveByte_of_dropped hdropped b)
  case idle => exact congrArg Host.Outcome.next (receiveByte_of_idle hidle b)

/-! ### SEL high (R158, R168) -/

/-- Commands whose end-of-transaction step does nothing (R158). -/
theorem endStep_of_reply {s : State} (h : s.hp.command ∈ [none, some .status, some .setup, some .join, some .leave,
    some .cancel, some .fetch, some .release, some .gate, some .readPeer, some .readOrder, some .mask]) :
    endStep s = s := by
  simp only [List.mem_cons, List.not_mem_nil, or_false] at h
  rcases h with h | h | h | h | h | h | h | h | h | h | h | h <;> simp [endStep, h]

theorem takeComplete_iff {s : State} {o : OutStream} (h : s.hp.stream = some o) (hok : o.reply = .ok) :
    takeComplete s.hp = true ↔ o.data.length + 1 ≤ o.clocked := by
  simp [takeComplete, h, hok, OutStream.complete, OutStream.bytes]

theorem takeComplete_eq_false {s : State} (h : ∀ o, s.hp.stream = some o → o.reply ≠ .ok) : takeComplete s.hp = false := by
  unfold takeComplete
  cases hstream : s.hp.stream with
  | none => rfl
  | some o => simp [h o hstream]

theorem endStep_of_takeIncomplete {s : State} (hcommand : s.hp.command = some .takeCompletion ∨ s.hp.command = some .takeNotice)
    (h : takeComplete s.hp = false) : endStep s = s := by
  obtain hcommand | hcommand := hcommand <;> simp [endStep, hcommand, h]

/-- Settles O11: by the transaction state, and in DECIDED by the end-of-transaction step of the command. -/
theorem transactionEndsAtSelHigh : Obligations.TransactionEndsAtSelHigh := by
  refine ⟨fun s => ⟨fun hidle => ?idle, fun hbefore => ?before, fun hdecided hcommand => ?decided⟩,
    fun s o hdecided hstream hok => ⟨fun hcommand => ?completion, fun hcommand => ?notice⟩⟩
  case idle => simp only [exec, execSelHigh, endTransaction, hidle]
  case before =>
    obtain h | h | h := hbefore
    · exact exec_selHigh_of_awaitsCommand (awaitsCommand_iff.mpr h)
    · exact exec_selHigh_of_parameters h
    · simp only [exec, execSelHigh, endTransaction, h]
      rfl
  case decided =>
    refine exec_selHigh_of_decided hdecided ?_
    obtain hcommand | ⟨hcommand, hnone⟩ | ⟨hcommand, hreply⟩ := hcommand
    · exact endStep_of_reply hcommand
    · simp [endStep, hcommand, hnone]
    · exact endStep_of_takeIncomplete hcommand (takeComplete_eq_false hreply)
  case completion =>
    by_cases hcomplete : takeComplete s.hp = true
    · simp only [exec, execSelHigh, endTransaction, hdecided, endStep, hcommand, hcomplete,
        if_pos ((takeComplete_iff hstream hok).mp hcomplete)]
      rfl
    · rw [exec_selHigh_of_decided hdecided (endStep_of_takeIncomplete (.inl hcommand) (Bool.eq_false_iff.mpr hcomplete)),
        if_neg (mt (takeComplete_iff hstream hok).mpr hcomplete)]
      rfl
  case notice =>
    by_cases hcomplete : takeComplete s.hp = true
    · simp only [exec, execSelHigh, endTransaction, hdecided, endStep, hcommand, hcomplete,
        if_pos ((takeComplete_iff hstream hok).mp hcomplete)]
      rfl
    · rw [exec_selHigh_of_decided hdecided (endStep_of_takeIncomplete (.inr hcommand) (Bool.eq_false_iff.mpr hcomplete)),
        if_neg (mt (takeComplete_iff hstream hok).mpr hcomplete)]
      rfl

end Sys2Proof.Machine
end

section
/-! What the host reads (chapter 10): STATUS, READ-PEER, and the copies of the oldest records. -/

namespace Sys2Proof.Machine

/-- The reply is what the next states differ in. -/
theorem answered_congr {s : State} {c : Option Command} {r : Reply} {data data' : List Byte} (h : data = data') :
    (.next { s with hp := s.hp.answered c r data } : Host.Outcome State Fault Refusal) =
      .next { s with hp := s.hp.answered c r data' } := by
  rw [h]

theorem answeredAfter_congr {s : State} {b : Byte} {r : Reply} {data data' : List Byte} (h : data = data') :
    (.next { s with hp := s.hp.answeredAfter b r data } : Host.Outcome State Fault Refusal) =
      .next { s with hp := s.hp.answeredAfter b r data' } := by
  rw [h]

/-! ### STATUS (R160) -/

/-- Settles O12: STATUS copies the counts at its decision point. -/
theorem statusReturnsCounts : Obligations.StatusReturnsCounts := by
  intro s htransaction
  rw [(exec_of_awaitsCommand (awaitsCommand_iff.mpr htransaction)).1, decide_, decideStatus, respond_takeCommand]
  refine answered_congr ?_
  change statusBytes s = _
  rw [statusBytes, ownPosition, ownAddress]
  cases s.ac.order.idxOf? s.ac.setup.address <;> rfl

/-! ### READ-PEER (R102) -/

theorem optionalByte_of_sequence (q : Seq) : optionalByte (some q.toNat) = q.setWidth 8 := by
  refine BitVec.eq_of_toNat_eq ?_
  simp [optionalByte, toByte]

theorem decideReadPeer_of_peer {s : State} {b : Byte} (hbytes : s.hp.parameters = [b]) (hvalid : s.ac.setup.valid = true)
    (hpeer : isPeer s b.toNat = true) : decideReadPeer s = respond .ok ((peerEntry s b.toNat).bytes s.li.time) s := by
  simp [decideReadPeer, parameter, hbytes, hvalid, hpeer]

theorem decideReadPeer_of_not_peer {s : State} {b : Byte} (hbytes : s.hp.parameters = [b])
    (h : ¬(s.ac.setup.valid = true ∧ isPeer s b.toNat = true)) : decideReadPeer s = respond .badAddress [] s := by
  simp only [decideReadPeer, parameter, hbytes, List.getD_cons_zero, ← Bool.and_eq_true] at h ⊢
  exact if_neg h

theorem exec_readPeer_of_awaitsLast {s : State} (h : awaitsLast .readPeer s = true) (b : Byte) :
    exec (.readPeer b) s = .next (decideReadPeer (takeParameter b s)) := congrArg Host.Outcome.next (if_pos h)

/-- Settles O14: by whether the byte names a peer of a valid setup; the reply copies the entry. -/
theorem readPeerReturnsEntry : Obligations.ReadPeerReturnsEntry := by
  intro b s htransaction hcommand hparameters
  have hlast : awaitsLast .readPeer s = true := awaitsLast_iff.mpr ⟨htransaction, hcommand, by rw [hparameters]; rfl⟩
  have hbytes : (takeParameter b s).hp.parameters = [b] := by simp [hparameters]
  have hpeer : isPeer (takeParameter b s) b.toNat = true ↔
      b.toNat < s.ac.setup.roster ∧ b.toNat ≠ s.ac.setup.address := isPeer_iff
  rw [exec_readPeer_of_awaitsLast hlast]
  refine ⟨fun ⟨hvalid, hroster, hown⟩ => ?ok, fun hnot => ?badAddress⟩
  case ok =>
    rw [decideReadPeer_of_peer hbytes hvalid (hpeer.mpr ⟨hroster, hown⟩), respond_takeParameter]
    refine answeredAfter_congr ?_
    change (peerEntry s b.toNat).bytes s.li.time = _
    generalize peerEntry s b.toNat = e
    rw [PeerEntry.bytes]
    simp only [List.cons.injEq, true_and, and_true]
    refine ⟨?presence, ?lastAccepted, ?gate, ?present, ?holdOff⟩
    case presence => cases e.presence <;> rfl
    case lastAccepted =>
      cases e.lastAccepted with
      | none => rfl
      | some q => exact optionalByte_of_sequence q
    case gate => cases e.gate <;> rfl
    case present => cases e.holdOff <;> rfl
    case holdOff =>
      cases e.holdOff with
      | none => rfl
      | some h => cases h <;> rfl
  case badAddress =>
    rw [decideReadPeer_of_not_peer hbytes, respond_takeParameter]
    rintro ⟨hvalid, h⟩
    exact hnot ⟨hvalid, hpeer.mp h⟩

/-! ### FETCH, TAKE-COMPLETION and TAKE-NOTICE (R119, R139, R178) -/

theorem decideFetch_of_empty {s : State} (h : s.re.ring = []) : decideFetch s = respond .empty [] s := by
  rw [decideFetch, h]

theorem decideFetch_of_cons {s : State} {r : RxRecord} {rest : List RxRecord} (h : s.re.ring = r :: rest) :
    decideFetch s = respond .ok r.bytes s := by
  rw [decideFetch, h]

theorem decideTakeCompletion_of_empty {s : State} (h : s.te.completions = []) :
    decideTakeCompletion s = respond .empty [] s := by
  rw [decideTakeCompletion, h]

theorem decideTakeCompletion_of_cons {s : State} {c : Completion} {rest : List Completion}
    (h : s.te.completions = c :: rest) : decideTakeCompletion s = respond .ok c.bytes s := by
  rw [decideTakeCompletion, h]

theorem decideTakeNotice_of_empty {s : State} (h : s.notices = []) : decideTakeNotice s = respond .empty [] s := by
  rw [decideTakeNotice, h]

theorem decideTakeNotice_of_cons {s : State} {n : NoticeRecord} {rest : List NoticeRecord} (h : s.notices = n :: rest) :
    decideTakeNotice s = respond .ok n.bytes s := by
  rw [decideTakeNotice, h]

/-- Settles O15: by whether a record stands there; the reply copies the oldest. -/
theorem readsCopyOldestRecord : Obligations.ReadsCopyOldestRecord := by
  refine ⟨fun s htransaction => ⟨fun hempty => ?noFrame, fun r rest hr => ?frame⟩,
    fun s htransaction => ⟨fun hempty => ?noCompletion, fun c rest hc => ?completion, fun hempty => ?noNotice,
      fun n rest hn => ?notice⟩⟩
  all_goals obtain ⟨-, -, -, -, hcompletion, hfetch, hnotice⟩ := exec_of_awaitsCommand (awaitsCommand_iff.mpr htransaction)
  case noFrame => rw [hfetch, decide_, decideFetch_of_empty (s := takeCommand _ s) hempty, respond_takeCommand]
  case frame =>
    rw [hfetch, decide_, decideFetch_of_cons (s := takeCommand _ s) hr, respond_takeCommand]
    refine answered_congr ?_
    rw [RxRecord.bytes]
    refine congrArg (· ++ r.payload) ?_
    simp only [List.cons.injEq, true_and, and_true]
    refine ⟨?kind, ?sequence⟩
    case kind => cases r.kind <;> rfl
    case sequence =>
      cases r.sequence with
      | none => rfl
      | some q => exact optionalByte_of_sequence q
  case noCompletion =>
    rw [hcompletion, decide_, decideTakeCompletion_of_empty (s := takeCommand _ s) hempty, respond_takeCommand]
  case completion =>
    rw [hcompletion, decide_, decideTakeCompletion_of_cons (s := takeCommand _ s) hc, respond_takeCommand]
    refine answered_congr ?_
    rw [Completion.bytes]
    simp only [List.cons.injEq, true_and, and_true]
    refine ⟨?sequence, rfl, ?lastAnswer⟩
    case sequence =>
      cases c.sequence with
      | none => rfl
      | some q => exact optionalByte_of_sequence q
    case lastAnswer => cases c.lastAnswer <;> rfl
  case noNotice => rw [hnotice, decide_, decideTakeNotice_of_empty (s := takeCommand _ s) hempty, respond_takeCommand]
  case notice =>
    rw [hnotice, decide_, decideTakeNotice_of_cons (s := takeCommand _ s) hn, respond_takeCommand]
    refine answered_congr ?_
    rw [NoticeRecord.bytes]
    cases n.notice.subject <;> cases n.notice.detail <;> rfl

end Sys2Proof.Machine
end

section
/-! JOIN and LEAVE, SUBMIT and CANCEL (chapters 05, 07 and 10): their decisions, and what an open SUBMIT ends in. -/

namespace Sys2Proof.Machine

/-! ### JOIN (R69, R79) -/

theorem decideJoin_of_not_offline {s : State} (h : s.ac.station ≠ .offline) : decideJoin s = respond .wrongState [] s := by
  simp [decideJoin, h]

theorem decideJoin_of_noSetup {s : State} (h : s.ac.station = .offline) (hsetup : s.ac.setup.valid = false) :
    decideJoin s = respond .noSetup [] s := by
  simp [decideJoin, h, hsetup]

theorem decideJoin_of_setup {s : State} (h : s.ac.station = .offline) (hsetup : s.ac.setup.valid = true) :
    decideJoin s = respond .ok [] (joinLine s) := by
  simp [decideJoin, h, hsetup]

/-- An accepted JOIN, on an undriven line and on a driven one, where a partial burst begins (R4). -/
theorem joinLine_eq (s : State) : joinLine s = { s with
    li := { State.reset.li with
      sensing := if s.li.lineDriven then .active else .quiet
      burst := if s.li.lineDriven then
          some { start := 0, length := 1, isOwn := false, isPartial := true, candidate := false, handed := 0, held := false }
        else none
      lineDriven := s.li.lineDriven }
    fu := State.reset.fu
    ac := { s.ac with
      station := .listening
      order := List.range s.ac.setup.roster
      restartPending := true
      collisions := 0
      tracker := { State.reset.ac.tracker with activitySeen := s.li.lineDriven } }
    peers := State.reset.peers
    re := { s.re with staging := none } } := by
  unfold joinLine beginSensing
  cases h : s.li.lineDriven
  · simp only [onPeers, onFu, onAc, onLi, setStaging, onRe, h]
    rfl
  · simp only [onPeers, onFu, onAc, onLi, setStaging, onRe, h]
    rfl

/-- Settles O17: by the station state and the setup record. -/
theorem joinStartsListening : Obligations.JoinStartsListening := by
  intro s htransaction
  obtain ⟨-, hjoin, -⟩ := exec_of_awaitsCommand (awaitsCommand_iff.mpr htransaction)
  rw [hjoin, decide_]
  refine ⟨fun hstation => ?wrongState, fun hoffline hsetup => ?noSetup, fun hoffline hsetup => ?ok⟩
  case wrongState => rw [decideJoin_of_not_offline (s := takeCommand _ s) hstation, respond_takeCommand]
  case noSetup => rw [decideJoin_of_noSetup (s := takeCommand _ s) hoffline hsetup, respond_takeCommand]
  case ok =>
    rw [decideJoin_of_setup (s := takeCommand _ s) hoffline hsetup, joinLine_eq]
    rfl

/-! ### LEAVE (R81, R84) -/

theorem decideLeave_of_offline {s : State} (h : s.ac.station = .offline) : decideLeave s = respond .wrongState [] s := by
  simp [decideLeave, h]

theorem decideLeave_of_not_offline {s : State} (h : s.ac.station ≠ .offline) :
    decideLeave s = respond .ok [] (leaveLine s) := by
  simp [decideLeave, h]

/-- A station that has an access or an answer of its own leaves at the access end (R81). -/
theorem leaveLine_of_busy {s : State} (h : s.ac.station = .listening ∨ s.ac.station = .resync ∨ s.ac.station = .online)
    (hbusy : s.ac.tracker.access.claim ≠ none ∨ answering s = true) : leaveLine s = setStation .leaving s := by
  have hcond : (ownAccess s || answering s) = true := by
    simpa [ownAccess, Option.isSome_iff_ne_none] using hbusy
  obtain h | h | h := h <;> simp [leaveLine, h, hcond]

theorem leaveLine_of_free {s : State} (h : s.ac.station = .listening ∨ s.ac.station = .resync ∨ s.ac.station = .online)
    (hclaim : s.ac.tracker.access.claim = none) (hanswer : answering s = false) : leaveLine s = enterOffline s := by
  have hcond : (ownAccess s || answering s) = false := by
    simp [ownAccess, hclaim, hanswer]
  obtain h | h | h := h <;> simp [leaveLine, h, hcond]

theorem PeerEntry.freeze_eq (now : Nat) (e : PeerEntry) : e.freeze now = { e with
    holdOff := e.holdOff.map fun
      | .running expiry => .frozen (expiry - now)
      | .frozen remaining => .frozen remaining } := by
  obtain ⟨_, _, _, _, _, holdOff⟩ := e
  cases holdOff with
  | none => rfl
  | some h => cases h <;> rfl

/-- Settles O18: by the station state and whether the station has an access or an answer of its own; entry to OFFLINE is the
end of sensing and the flush. -/
theorem leaveEntersLeavingOrOffline : Obligations.LeaveEntersLeavingOrOffline := by
  intro s htransaction
  obtain ⟨-, -, hleave, -⟩ := exec_of_awaitsCommand (awaitsCommand_iff.mpr htransaction)
  rw [hleave, decide_]
  have hnot {st : StationState} (h : s.ac.station = st) (hst : st ≠ .offline) :
      (takeCommand (some .leave) s).ac.station ≠ .offline := by
    simpa [h] using hst
  refine ⟨fun hoffline => ?wrongState, fun hleaving => ?kept, fun hstation hbusy => ?leaving, fun hfree => ?left⟩
  case wrongState => rw [decideLeave_of_offline (s := takeCommand _ s) hoffline, respond_takeCommand]
  case kept =>
    have hsame : leaveLine (takeCommand (some .leave) s) = takeCommand (some .leave) s := by
      simp [leaveLine, hleaving]
    rw [decideLeave_of_not_offline (hnot hleaving (by decide)), hsame, respond_takeCommand]
  case leaving =>
    have hoff : (takeCommand (some .leave) s).ac.station ≠ .offline := by
      obtain h | h | h := hstation <;> exact hnot h (by decide)
    rw [decideLeave_of_not_offline hoff, leaveLine_of_busy (s := takeCommand _ s) hstation hbusy]
    rfl
  case left =>
    have hoff : (takeCommand (some .leave) s).ac.station ≠ .offline := by
      obtain h | ⟨h | h | h, -⟩ := hfree <;> exact hnot h (by decide)
    have henter : leaveLine (takeCommand (some .leave) s) = enterOffline (takeCommand (some .leave) s) := by
      obtain h | ⟨h, hclaim, hanswer⟩ := hfree
      · simp [leaveLine, h]
      · exact leaveLine_of_free (s := takeCommand _ s) h hclaim hanswer
    rw [decideLeave_of_not_offline hoff, henter]
    have hte := flushQueue_te (endSensing (takeCommand (some .leave) s))
    have hfree := flushQueue_freeBlocks (endSensing (takeCommand (some .leave) s))
    refine ⟨_, rfl, ?_, ?_, ?_, ?_, hte, hfree, fun a ha => ?_, ?_, ?_, ?_, ?_, ?_⟩
    case refine_5 =>
      exact (peerEntry_enterOffline (takeCommand (some .leave) s) ha).trans (by rw [PeerEntry.freeze_eq]; rfl)
    all_goals simp [State.reset, AccessController.initial, HostPort.answered]

end Sys2Proof.Machine
end

section
/-! SUBMIT and CANCEL (chapter 07): the tests of a request, what its transaction ends in, and the entry that is cancelled. -/

namespace Sys2Proof.Machine

/-! ### The tests of SUBMIT (R105) -/

theorem BitVec.toNat_eq_zero_iff {w : Nat} {b : BitVec w} : b.toNat = 0 ↔ b = 0 := by
  rw [← BitVec.toNat_inj]
  simp

theorem destination_code_iff {d : Byte} : d.toNat = allAddress ↔ d = 63 := by
  rw [← BitVec.toNat_inj]
  rfl

theorem takesSubmit_iff (st : StationState) : (!st.takesSubmit) = true ↔ st ≠ .listening ∧ st ≠ .resync ∧ st ≠ .online := by
  cases st <;> decide

/-- The kind that a byte requests: 0 a DATA message, any other a PROBE (R105). -/
theorem messageKindOf_beq_probe (k : Byte) : (messageKindOf k == .probe) = true ↔ k ≠ 0 := by
  unfold messageKindOf
  split_ifs with h
  · exact iff_of_false (by decide) (not_not.mpr h)
  · exact iff_of_true (by decide) h

section
variable (k d th tl len : Byte) (s : State)

theorem badLength_iff : (requestOf [k, d, th, tl, len]).badLength = true ↔ 240 < len.toNat ∨ (k ≠ 0 ∧ len ≠ 0) := by
  have hlength : (requestOf [k, d, th, tl, len]).length = len.toNat := rfl
  have hkind : (requestOf [k, d, th, tl, len]).kind = messageKindOf k := rfl
  rw [OpenSubmit.badLength, Bool.or_eq_true, Bool.and_eq_true, decide_eq_true_iff, bne_iff_ne, hlength, hkind,
    messageKindOf_beq_probe, Ne, Ne, Ne, BitVec.toNat_eq_zero_iff]

theorem badDestination_iff : badDestination (requestOf [k, d, th, tl, len]) s = true ↔
    (d = 63 ∧ k ≠ 0) ∨ (d ≠ 63 ∧ s.ac.setup.roster ≤ d.toNat) ∨ (d ≠ 63 ∧ d.toNat = s.ac.setup.address) := by
  have hkind : (requestOf [k, d, th, tl, len]).kind = messageKindOf k := rfl
  have hdestination : (requestOf [k, d, th, tl, len]).destination = if d.toNat = allAddress then .all else .peer d.toNat := rfl
  rw [badDestination, hdestination, hkind]
  by_cases hall : d = 63
  · rw [if_pos (destination_code_iff.mpr hall)]
    simp only [messageKindOf_beq_probe]
    tauto
  · rw [if_neg (mt destination_code_iff.mp hall)]
    simp only [Bool.not_eq_true', ← Bool.not_eq_true, isPeer_iff, not_and_or, not_lt, not_not]
    tauto

theorem tagHeld_iff (tag : Tag) : tagHeld tag s = true ↔
    (∃ e ∈ s.te.queue, e.tag = tag) ∨ (∃ c ∈ s.te.completions, c.tag = tag) := by
  simp [tagHeld]

theorem reserveRefuses_iff : (!reserveGrants len.toNat s) = true ↔ len ≠ 0 ∧ s.freeBlocks < (len.toNat + 31) / 32 + 16 := by
  simp only [reserveGrants, Bool.not_or, Bool.and_eq_true, Bool.not_eq_true', beq_eq_false_iff_ne, decide_eq_false_iff_not,
    ne_eq, BitVec.toNat_eq_zero_iff, not_le]
  rfl

/-- The reply to SUBMIT is that of the first test that its bytes fail (R105). -/
theorem submitReply_requestOf : submitReply (requestOf [k, d, th, tl, len]) s =
    if s.ac.station ≠ .listening ∧ s.ac.station ≠ .resync ∧ s.ac.station ≠ .online then .wrongState
    else if 240 < len.toNat ∨ (k ≠ 0 ∧ len ≠ 0) then .badLength
    else if (d = 63 ∧ k ≠ 0) ∨ (d ≠ 63 ∧ s.ac.setup.roster ≤ d.toNat) ∨ (d ≠ 63 ∧ d.toNat = s.ac.setup.address)
      then .badDest
    else if (∃ e ∈ s.te.queue, e.tag = wordOfBytes th tl) ∨ (∃ c ∈ s.te.completions, c.tag = wordOfBytes th tl)
      then .duplicateTag
    else if 32 ≤ s.te.queue.length + s.te.completions.length then .queueFull
    else if len ≠ 0 ∧ s.freeBlocks < (len.toNat + 31) / 32 + 16 then .noSpace
    else .ok := by
  rw [submitReply]
  refine if_congr (takesSubmit_iff _) rfl (if_congr (badLength_iff k d th tl len) rfl
    (if_congr (badDestination_iff k d th tl len s) rfl (if_congr (tagHeld_iff s _) rfl (if_congr Iff.rfl rfl
      (if_congr (reserveRefuses_iff len s) rfl rfl)))))

end

theorem decideSubmit_of_ok {s : State} (h : submitReply (requestOf s.hp.parameters) s = .ok) :
    decideSubmit s = respond .ok [] (openRequest (requestOf s.hp.parameters) s) := by
  rw [decideSubmit, h]

theorem decideSubmit_of_refused {s : State} (h : submitReply (requestOf s.hp.parameters) s ≠ .ok) :
    decideSubmit s = respond (submitReply (requestOf s.hp.parameters) s) [] s := by
  dsimp only [decideSubmit]
  generalize submitReply (requestOf s.hp.parameters) s = r at h ⊢
  cases r with
  | ok => exact absurd rfl h
  | _ => rfl

/-- Settles O19: the reply is that of the first test that fails; with none failing the request opens with its blocks. -/
theorem submitIsJudgedAndOpens : Obligations.SubmitIsJudgedAndOpens := by
  intro k d th tl len s htransaction hcommand hparameters
  dsimp only
  have hlast : awaitsLast .submit s = true := awaitsLast_iff.mpr ⟨htransaction, hcommand, by rw [hparameters]; rfl⟩
  have hbytes : (takeParameter len s).hp.parameters = [k, d, th, tl, len] := by simp [hparameters]
  have hexec : exec (.submit len) s = .next (decideSubmit (takeParameter len s)) := congrArg Host.Outcome.next (if_pos hlast)
  have hreply := submitReply_requestOf k d th tl len s
  have htest : submitReply (requestOf (takeParameter len s).hp.parameters) (takeParameter len s) =
      submitReply (requestOf [k, d, th, tl, len]) s := by
    rw [hbytes]
    rfl
  rw [hexec, ← hreply]
  refine ⟨fun hrefused => ?refused, fun hok => ⟨?opened, fun hlen => ?reserve⟩⟩
  case refused => rw [decideSubmit_of_refused (htest ▸ hrefused), htest, respond_takeParameter]
  case opened =>
    have hdestination : destinationOf d = if d = 63 then .all else .peer d.toNat :=
      if_congr destination_code_iff rfl rfl
    rw [decideSubmit_of_ok (htest.trans hok), hbytes, ← hdestination]
    rfl
  case reserve =>
    obtain ⟨-, -, -, hblocks, -⟩ := submitReply_ok hok
    have hpos : 0 < len.toNat := Nat.pos_of_ne_zero (mt BitVec.toNat_eq_zero_iff.mp hlen)
    have hfits : (len.toNat + 31) / 32 = 0 ∨ (len.toNat + 31) / 32 + 16 ≤ s.freeBlocks := hblocks
    omega

/-! ### SEL high after SUBMIT (R106, R147) -/

theorem exec_selHigh_of_submit {s : State} {o : OpenSubmit} (hdecided : s.hp.transaction = .decided)
    (hcommand : s.hp.command = some .submit) (ho : s.hp.submit = some o) :
    exec .selHigh s = .next (closeTransaction (endSubmit o s)) := by
  simp only [exec, execSelHigh, endTransaction, hdecided, endStep, hcommand, ho]

/-- Settles O20: the entry joins if its payload is complete, and the need to send is tested on the queue with it. -/
theorem submitJoinsOrReturns : Obligations.SubmitJoinsOrReturns := by
  intro s o hdecided hcommand ho
  rw [exec_selHigh_of_submit hdecided hcommand ho]
  refine ⟨fun hshort => ?returned, fun hcomplete => ?joined⟩
  case returned =>
    rw [endSubmit, if_neg hshort]
    rfl
  case joined =>
    have hjoined : endSubmit o s = wakeIfNeeded (onTe (fun t => { t with queue := t.queue ++ [o.entry] })
        (onHp (fun h => { h with submit := none }) s)) := if_pos hcomplete
    rw [hjoined]
    generalize hq : onTe (fun t => { t with queue := t.queue ++ [o.entry] }) (onHp (fun h => { h with submit := none }) s) = q
    have hqueued : q.te = { s.te with queue := s.te.queue ++ [o.entry] } := by subst hq; rfl
    obtain ⟨hli, hac, hfree, hfu, hpeers, hre, hnotices, hheld, hchoice, hpending, hmask⟩ :
        q.li = s.li ∧ q.ac = s.ac ∧ q.freeBlocks = s.freeBlocks ∧ q.fu = s.fu ∧ q.peers = s.peers ∧ q.re = s.re ∧
          q.notices = s.notices ∧ q.resetHeld = s.resetHeld ∧ q.choice = s.choice ∧ q.pending = s.pending ∧
          q.hp.mask = s.hp.mask := by
      subst hq
      exact ⟨rfl, rfl, rfl, rfl, rfl, rfl, rfl, rfl, rfl, rfl, rfl⟩
    obtain ⟨-, -, -, -, hnothing, hwake⟩ := wakeIfNeeded_spec q
    have hselect : selectEntry (closeTransaction (wakeIfNeeded q)) = selectEntry q := selectEntry_congr (by simp) (by simp)
    refine ⟨_, rfl, Eq.trans (by simp) hqueued, Eq.trans (by simp [hmask]) (rfl : HostPort.between s.hp.mask = _), by simpa using hfree, by simpa using hfu,
      by simpa using hpeers, by simpa using hre, by simpa using hnotices, by simpa using hheld, by simpa using hchoice,
      by simpa using hpending, ?_⟩
    rw [hselect]
    have hneed_iff := needToSend_iff q
    rw [hac] at hneed_iff
    dsimp only
    rw [← hneed_iff]
    refine ⟨fun hno => ?_, fun hrest hyes hx hopen => ?_⟩
    · rw [hnothing (by simpa [hac] using hno)]
      exact ⟨hli, hac⟩
    · obtain ⟨hli', hac'⟩ := hwake (by rw [hac]; exact hrest) hyes (by simpa [claimOpen, claimUnsettled, claimProgress, hac] using hopen)
        (by rw [hli]; exact hx)
      rw [hli] at hli' hac'
      rw [hac] at hac'
      exact ⟨hli', hac'⟩

/-! ### CANCEL (R120) -/

theorem exec_cancel_of_awaitsLast {s : State} (h : awaitsLast .cancel s = true) (b : Byte) :
    exec (.cancel b) s = .next (decideCancel (takeParameter b s)) := congrArg Host.Outcome.next (if_pos h)

theorem decideCancel_of_absent {s : State} {th tl : Byte} (hbytes : s.hp.parameters = [th, tl])
    (h : findEntry s (wordOfBytes th tl) = none) : decideCancel s = respond .notFound [] s := by
  simp [decideCancel, parameter, hbytes, h]

theorem decideCancel_of_inFlight {s : State} {th tl : Byte} {e : TxEntry} (hbytes : s.hp.parameters = [th, tl])
    (h : findEntry s (wordOfBytes th tl) = some e) (hstate : e.state = .inFlight) :
    decideCancel s =
      respond .pending [] (updateEntry (wordOfBytes th tl) (fun e => { e with cancelPending := true }) s) := by
  simp [decideCancel, parameter, hbytes, h, hstate]

theorem decideCancel_of_waiting {s : State} {th tl : Byte} {e : TxEntry} (hbytes : s.hp.parameters = [th, tl])
    (h : findEntry s (wordOfBytes th tl) = some e) (hstate : e.state = .waiting) :
    decideCancel s = respond .ok [] (finishEntry (wordOfBytes th tl) .cancelled false s) := by
  simp [decideCancel, parameter, hbytes, h, hstate]

/-- An entry that finishes, as the statements say it (R117). -/
theorem finishEntry_finished {s : State} {tag : Tag} {e : TxEntry} (h : findEntry s tag = some e) (outcome : MessageOutcome)
    (note : Bool) : Finished e outcome note e.lastAnswer s (finishEntry tag outcome note s) := by
  obtain ⟨hte, hfree, -⟩ := finishEntry_found h outcome note
  have htag := (findEntry_mem h).2
  exact ⟨by rw [hte, htag], hfree, by rw [hte]; rfl⟩

/-- What a finishing entry does to the Peer Table (R94). -/
theorem peerEntry_finishEntry {s : State} {tag : Tag} {e : TxEntry} (h : findEntry s tag = some e) (outcome : MessageOutcome)
    (note : Bool) {a : Nat} (ha : a < 32) : peerEntry (finishEntry tag outcome note s) a = { peerEntry s a with
      nextSend := (peerEntry s a).nextSend + if e.destination = .peer a ∧ e.sequence ≠ none then 1 else 0 } := by
  obtain ⟨-, -, hpeers⟩ := finishEntry_found h outcome note
  rw [peerEntry_congr hpeers, peerEntry_advanceSequence e s ha]

/-- Settles O21: by whether an entry carries the tag, and by its state. -/
theorem cancelFinishesOrMarks : Obligations.CancelFinishesOrMarks := by
  intro th tl s htransaction hcommand hparameters
  have hlast : awaitsLast .cancel s = true := awaitsLast_iff.mpr ⟨htransaction, hcommand, by rw [hparameters]; rfl⟩
  have hbytes : (takeParameter tl s).hp.parameters = [th, tl] := by simp [hparameters]
  have hfind : findEntry (takeParameter tl s) (wordOfBytes th tl) = findEntry s (wordOfBytes th tl) := rfl
  rw [exec_cancel_of_awaitsLast hlast]
  refine ⟨fun habsent => ?notFound, fun e he hstate => ?pending, fun e he hstate => ?cancelled⟩
  case notFound =>
    have hnone : findEntry s (wordOfBytes th tl) = none := List.find?_eq_none.mpr (by simpa using habsent)
    rw [decideCancel_of_absent hbytes (hfind.trans hnone), respond_takeParameter]
  case pending =>
    rw [decideCancel_of_inFlight hbytes (hfind.trans he) hstate]
    simp only [updateEntry, beq_iff_eq]
    rfl
  case cancelled =>
    rw [decideCancel_of_waiting hbytes (hfind.trans he) hstate]
    refine ⟨_, rfl, finishEntry_finished (hfind.trans he) _ _, ?_, fun a ha => peerEntry_finishEntry (hfind.trans he) _ _ ha,
      ?_, ?_, ?_, ?_, ?_, ?_, ?_, ?_⟩
    all_goals simp [HostPort.answeredAfter]

end Sys2Proof.Machine
end

section
/-! One step, the passing of time, and the resets (chapters 01, 05 and 10). -/

namespace Sys2Proof.Machine

/-! ### A step (R1; logs 3 and 4) -/

/-- Settles O1: by the definition of a step. -/
theorem stepRunsFrontCommand : Obligations.StepRunsFrontCommand := by
  intro c rest s h
  rw [step, h]

/-- A bit time in QUIET (R36, R51). -/
theorem passTime_one_of_quiet {s : State} (h : s.li.sensing = .quiet) : passTime 1 s = { s with
    li := { s.li with time := s.li.time + 1 }
    ac := { s.ac with tracker := { s.ac.tracker with
      guard := s.ac.tracker.guard.map (· + 1)
      restDetect := if s.ac.tracker.phase = .unaligned ∧ s.ac.tracker.activitySeen = false
        then s.ac.tracker.restDetect + 1 else s.ac.tracker.restDetect } } } := by
  rw [passTime, h]
  simp [passQuiet, onTracker, onAc, onLi]

/-- A bit time of the burst in ACTIVE (R5, R14). -/
theorem passTime_one_of_active {s : State} (h : s.li.sensing = .active) : passTime 1 s = { s with
    li := { s.li with
      time := s.li.time + 1
      burst := s.li.burst.map fun b => { b with length := b.length + 1 }
      stuckTimer := if s.li.tx = none then min 4096 (s.li.stuckTimer + 1) else 0 } } := by
  rw [passTime, h]
  cases hx : s.li.tx <;> simp [passDriven, onLi, h, hx, stuckLimit] <;> rfl

/-- A bit time of the burst in STUCK, where the stuck timer stops (R14). -/
theorem passTime_one_of_stuck {s : State} (h : s.li.sensing = .stuck) : passTime 1 s = { s with
    li := { s.li with time := s.li.time + 1, burst := s.li.burst.map fun b => { b with length := b.length + 1 } } } := by
  rw [passTime, h]
  simp [passDriven, onLi, h]
  rfl

theorem passTime_succ (n : Nat) (s : State) : passTime (n + 1) s = passTime n (passTime 1 s) := by
  rw [passTime_add, Nat.add_comm]

/-- Settles O2: by the sensing state; bit times before an event add up. -/
theorem bitTimesPassAloneAndBeforeEvents : Obligations.BitTimesPassAloneAndBeforeEvents := by
  have hstep {s : State} (h : s.pending = []) : step s = .next (passTime 1 s) := by
    rw [step, h]
  refine ⟨fun s h => ⟨fun hoff => ?_, fun hquiet => ?_, fun hactive => ?_, fun hstuck => ?_⟩,
    fun n s => ⟨hstep, fun hquiet => ?_, fun hactive hx => ?_, fun hstuck => ?_, fun hx => ?_⟩⟩
  · rw [hstep h, passTime, hoff]
  · rw [hstep h, passTime_one_of_quiet hquiet]
  · rw [hstep h, passTime_one_of_active hactive]
  · rw [hstep h, passTime_one_of_stuck hstuck]
  · simp [exec, execActiveEvent, hquiet, passTime_succ n s]
  · simp [exec, execQuietEvent, hactive, driving, hx, passTime_succ n s]
  · simp [exec, execFree, hstuck, passTime_succ n s]
  · obtain ⟨x, hx⟩ := Option.ne_none_iff_exists'.mp hx
    simp [exec, execEchoMismatch, hx, passTime_succ n s]

theorem Decision.pending {c : Command} {s t : State} (h : Decision c s t) : t.pending = s.pending := by
  cases h <;> simp

/-- No command takes another from the queue (log 4). -/
theorem Change.pending {s t : State} (h : Change s t) : t.pending = s.pending := by
  cases h with
  | nothing => rfl
  | host h =>
    cases h with
    | decided r data hu ht =>
      obtain ⟨hport, -⟩ := hu.keeps
      rw [(respond_frame r data _).2.2.2.2.2.2.2.2.2.2, ht.pending, hport]
    | hardReset => rfl
    | restarted => rfl
    | _ => simp
  | line h =>
    have hpass {u : State} (hu : u = s ∨ ∃ n, u = passTime n s) : u.pending = s.pending := by
      obtain rfl | ⟨n, rfl⟩ := hu <;> simp
    cases h with
    | quiet hu => simpa using hpass hu
    | free hu => simpa using hpass hu
    | _ => simp

/-- Settles O3: every command is one of the changes; an unknown code that is known, and a hold-off of no peer, change
nothing. -/
theorem everyCommandAnswersNextState : Obligations.EveryCommandAnswersNextState := by
  refine ⟨fun c s => ?_, fun c s hformed => ?_⟩
  · obtain ⟨t, ht, hchange⟩ := change_of_exec c s
    exact ⟨t, ht, hchange.pending⟩
  · cases c with
    | unknownCommand code =>
      have hknown : (commandOf code).isNone = false := by
        have hcode : code ∈ commandCodes := by simpa [Instr.wellFormed] using hformed
        have hall : ∀ b ∈ commandCodes, (commandOf b).isNone = false := by decide
        exact hall code hcode
      exact congrArg Host.Outcome.next (if_neg (by simp [hknown]))
    | holdOffExpiry peer =>
      have hout : 32 ≤ peer := by simpa [Instr.wellFormed] using hformed
      simp [exec, execHoldOffExpiry, peerEntry_outside s hout, PeerEntry.initial]
    | _ => simp [Instr.wellFormed] at hformed

/-! ### The resets (R87, R88) -/

theorem peerEntry_reset (a : Nat) : peerEntry State.reset a = PeerEntry.initial := by
  by_cases ha : a < 32
  · simp [peerEntry, State.reset, ha]
  · exact peerEntry_outside _ (not_lt.mp ha)

/-- Settles O4: by the values written down for the reset. -/
theorem resetValuesAreTheStatedOnes : Obligations.ResetValuesAreTheStatedOnes := by
  refine ⟨rfl, rfl, rfl, rfl, rfl, rfl, rfl, rfl, rfl, rfl, rfl, rfl, rfl, rfl, rfl, rfl, rfl, rfl, rfl, rfl,
    fun a => peerEntry_reset a, rfl, rfl, rfl, rfl, rfl, rfl, rfl, rfl, rfl, rfl, rfl⟩

/-- Settles O5: by whether a transaction is in progress. -/
theorem hardResetGivesInitialValuesAndHolds : Obligations.HardResetGivesInitialValuesAndHolds := by
  refine fun s => ⟨congrArg Host.Outcome.next ?_, rfl⟩
  rw [hardResetState]
  cases s.hp.transaction <;> rfl

/-- Settles O6: RESTART decides nothing but its reply; the reset is its end-of-transaction step. -/
theorem restartResetsAtSelHigh : Obligations.RestartResetsAtSelHigh := by
  refine fun s => ⟨fun htransaction => ?_, fun hdecided hcommand => ?_⟩
  · obtain ⟨-, -, -, hrestart, -⟩ := exec_of_awaitsCommand (awaitsCommand_iff.mpr htransaction)
    rw [hrestart, decide_, decideRestart, respond_takeCommand]
  · rw [exec_selHigh_of_restart hdecided hcommand]
    rfl

/-- Settles O54: a reset station is asleep, with nothing held and every count at 0. -/
theorem invariantsHoldAtReset : Obligations.InvariantsHoldAtReset := by
  have hasleep : Asleep State.reset := by
    have h := initialValues_asleep SetupRecord.initial State.reset.hp State.reset
    exact h.of_eq rfl rfl rfl rfl fun _ _ => rfl
  obtain ⟨hsilence, hstopped⟩ := (awake_or_asleep_iff State.reset).mpr (.inr hasleep)
  have hframed : SubmitFramed State.reset := fun h => by simp [State.reset, HostPort.between] at h
  have hpeers : PeersSound State.reset := initialPeers_sound rfl
  have hdeframer : DeframerFollowsCandidate State.reset := fun h => absurd rfl h
  have hgrounded : Grounded State.reset := .of_empty rfl
  refine ⟨⟨hframed, by decide, by decide⟩, ⟨hframed, by decide, by decide, by decide⟩, ⟨by decide, by decide⟩,
    ⟨hframed, by decide⟩, .inl rfl, hsilence, hstopped, hgrounded.inFlightClaimed, ?_, by decide,
    ⟨hframed, fun _ => rfl, fun _ => rfl⟩, hpeers, hdeframer⟩
  exact fun _ => ⟨rfl, .inl rfl⟩

/-! ### The answer goes out (R30, R31) -/

@[simp] theorem bitsLowFirst_length (b : Byte) : (bitsLowFirst b).length = 8 := by
  simp [bitsLowFirst]

theorem answerSymbols_length (source : Nat) (a : Answer) : (answerSymbols source a).length = 74 := by
  simp [answerSymbols, envelope, answerHeaderBytes, withHeaderCheck, preambleSymbols, syncSymbols, endSymbols]

/-- Settles O39: the answer waits for its due time, and then goes out or is lost to a driver that is DRIVING. -/
theorem answerGoesOutAfterGap : Obligations.AnswerGoesOutAfterGap := by
  intro s a due hframer hsensing
  have hexec : exec .answerGapExpiry s = .next (sendAnswer a (runTo due s)) := by
    simp [exec, execAnswerGapExpiry, hframer]
  have htime : (runTo due s).li.time = max s.li.time due := by
    rw [runTo, passTime_time _ hsensing]
    omega
  have hx : (runTo due s).li.tx = s.li.tx := by simp [runTo]
  have hrun : OrderKept s (runTo due s) := (passTime_watches _ s).order
  refine ⟨_, hexec, ?_⟩
  by_cases hdriving : driving (runTo due s) = true
  · have hlost : sendAnswer a (runTo due s) = setFramer .idle (runTo due s) := if_pos hdriving
    have hnone : s.li.tx ≠ none := by
      rw [← hx]
      simpa [driving, Option.isSome_iff_ne_none] using hdriving
    rw [hlost]
    exact ⟨by simpa using htime, by simp, by simp, hrun.trans (.of_eq (by simp)), by simp [MessagesKept, HostSideKept],
      fun h => absurd h hnone, fun _ => ⟨by simp, by simpa using hx⟩⟩
  · have hsent : sendAnswer a (runTo due s) = setFramer .answer
        (startTransmission .answer (answerSymbols (ownAddress (runTo due s)) a) (runTo due s)) := if_neg hdriving
    have hown : ownAddress (runTo due s) = s.ac.setup.address := by simp [ownAddress, runTo]
    have hnone : s.li.tx = none := by
      rw [← hx]
      exact driving_eq_false_iff.mp (by simpa using hdriving)
    rw [hsent, hown]
    refine ⟨by simpa using htime, by simp, by simp, hrun.trans (.of_eq (by simp)), by simp [MessagesKept, HostSideKept],
      fun _ => ⟨by simp, by simp, answerSymbols_length _ a, fun b hb => ?_⟩, fun h => absurd hnone h⟩
    obtain ⟨b₁, hb₁, hstart₁, hpartial₁, hown₁⟩ := passTime_burst (due - s.li.time) hb
    obtain ⟨b₂, hb₂, hstart₂, hpartial₂, hown₂⟩ :=
      startTransmission_burst .answer (answerSymbols s.ac.setup.address a) (s := runTo due s) hb₁
    refine ⟨b₂, by simpa using hb₂, hstart₂.trans hstart₁, hpartial₂.trans hpartial₁, ?_⟩
    rw [hown₂, hown₁, hstart₁, hpartial₁]
    simp

end Sys2Proof.Machine
end

section
/-! Bursts (chapter 01): where they begin, become candidates and end. -/

namespace Sys2Proof.Machine

/-! ### Bit times, by sensing state -/

theorem passTime_of_quiet {s : State} (h : s.li.sensing = .quiet) (n : Nat) : passTime n s = passQuiet n s := by
  rw [passTime, h]

theorem passTime_of_active {s : State} (h : s.li.sensing = .active) (n : Nat) : passTime n s = passDriven n s := by
  rw [passTime, h]

theorem passQuiet_tracker (n : Nat) (s : State) : (passQuiet n s).ac.tracker = { s.ac.tracker with
    guard := s.ac.tracker.guard.map (· + n)
    restDetect := if s.ac.tracker.phase = .unaligned ∧ s.ac.tracker.activitySeen = false
      then s.ac.tracker.restDetect + n else s.ac.tracker.restDetect } := by
  have hcond : (s.ac.tracker.phase == .unaligned && !s.ac.tracker.activitySeen) = true ↔
      s.ac.tracker.phase = .unaligned ∧ s.ac.tracker.activitySeen = false := by simp
  rw [← if_congr hcond rfl rfl]
  rfl

/-! ### The active event (R5) -/

theorem activeEvent_tracker (s : State) : (activeEvent s).ac.tracker = { s.ac.tracker with
    phase := if s.ac.tracker.phase = .unaligned then .unaligned else .access
    unclaimed := 0
    guard := none
    activitySeen := s.ac.tracker.activitySeen || decide (s.ac.tracker.phase = .unaligned)
    access := { s.ac.tracker.access with
      burstSlot := if s.ac.tracker.phase = .round
        then some (min (2 * s.ac.setup.roster - 1) ((s.li.time - s.ac.tracker.roundStart.getD 0) / s.ac.setup.slot))
        else none } } := by
  have hphase : s.ac.tracker.phase.afterActivity = if s.ac.tracker.phase = .unaligned then .unaligned else .access := by
    cases s.ac.tracker.phase <;> rfl
  have hslot : (s.ac.tracker.phase == .round) = true ↔ s.ac.tracker.phase = .round := beq_iff_eq
  have hunaligned : (s.ac.tracker.phase == .unaligned) = decide (s.ac.tracker.phase = .unaligned) := by
    rw [Bool.eq_iff_iff, beq_iff_eq, decide_eq_true_iff]
  rw [← hphase, ← hunaligned, ← if_congr hslot rfl rfl]
  rfl

theorem activeEvent_li (s : State) : (activeEvent s).li =
    { s.li with sensing := .active, burst := some (Burst.begin s.li), stuckTimer := 0, lineDriven := true } := by
  simp [activeEvent, beginBurst]

theorem begin_isOwn_iff (l : LineInterface) : (Burst.begin l).isOwn = true ↔ ∃ x, l.tx = some x ∧ x.start = l.time := by
  simp [Burst.begin, Option.any_eq_true]

/-! ### The frame candidate (R6) -/

theorem candidateStep_li {b : Burst} {s : State} (h : s.li.sensing = .active) (hb : s.li.burst = some b) :
    (candidateStep b s).li = { s.li with
      time := s.li.time + (6 - b.length)
      burst := some { b with length := max 6 b.length, candidate := true }
      stuckTimer := (candidateStep b s).li.stuckTimer } := by
  have hlength : b.length + (6 - b.length) = max 6 b.length := by omega
  simp [candidateStep, burstTo, passTime_of_active h, passDriven, hb, Burst.lengthen, hlength]

theorem candidateStep_deframer {s : State} (b : Burst) (h : s.fu.deframer.phase = .quiet) :
    (candidateStep b s).fu = { s.fu with
      deframer := { State.reset.fu.deframer with phase := if b.isOwn then .discard else .hunt } } := by
  simp [candidateStep, burstTo, Deframer.start, h, State.reset, FrameUnit.initial]

theorem candidateStep_tracker {b : Burst} {s : State} (h : s.li.sensing = .active) :
    (candidateStep b s).ac.tracker = { s.ac.tracker with
      access := if b.isOwn = false ∧ s.ac.tracker.access.candidateSeen = false
        then { s.ac.tracker.access with candidateSeen := true, following := true } else s.ac.tracker.access } := by
  cases hown : b.isOwn <;> cases hseen : s.ac.tracker.access.candidateSeen <;>
    simp [candidateStep, burstTo, passTime_of_active h, passDriven, AccessRecord.meetCandidate, hown, hseen]

/-- Settles O25: bit times of quiet or of the burst pass, and the event writes what it says. -/
theorem burstBeginsAndBecomesCandidate : Obligations.BurstBeginsAndBecomesCandidate := by
  refine ⟨fun n s hquiet => ?begins, fun s b hactive hb hpartial hnew hdeframer => ?candidate⟩
  case begins =>
    have hexec : exec (.activeEvent n) s = .next (activeEvent (passTime n s)) := by
      simp [exec, execActiveEvent, hquiet]
    have hli : (passTime n s).li = { s.li with time := s.li.time + n } := by
      rw [passTime_of_quiet hquiet]
      rfl
    refine ⟨_, Burst.begin (passTime n s).li, hexec, ?_, ?_, ?_, ?_, ?_, ?_, ?_⟩
    · rw [activeEvent_li, hli]
    · rw [hli]
      rfl
    · rw [begin_isOwn_iff, hli]
    · rw [activeEvent_tracker, hli, passTime_of_quiet hquiet, passQuiet_tracker]
      simp [passQuiet]
    · exact ((passTime_watches n s).trans (activeEvent_watches _)).order
    · simp
    · simp [MessagesKept, HostSideKept]
  case candidate =>
    have hexec : exec .frameCandidate s = .next (candidateStep b s) := by
      simp [exec, execFrameCandidate, hactive, hb, hpartial, hnew]
    exact ⟨_, hexec, candidateStep_li hactive hb, candidateStep_deframer b hdeframer, candidateStep_tracker hactive,
      (candidateStep_watches b s).order, by simp [MessagesKept, HostSideKept]⟩

/-! ### The end of a burst with no frame end (R7, R15) -/

theorem burstEnd_li (b : Burst) (s : State) : (burstEnd b s).li = { s.li with
    sensing := .quiet, burst := none, lineDriven := false, time := max s.li.time (b.start + b.length + 2) } := by
  simp only [burstEnd]
  split_ifs <;> simp [quietAtLi]

theorem candidateEnd_of_discard {s : State} (h : s.fu.deframer.phase = .discard) : candidateEnd s = quietDeframer s := by
  rw [candidateEnd, h]

/-- The end of a burst that brings no frame end: it was no candidate for the deframer, or one in DISCARD (R28). -/
theorem burstEnd_of_discard {b : Burst} {s : State}
    (h : b.candidate = true → b.isPartial = false → s.fu.deframer.phase = .discard) :
    burstEnd b s = burstEndAtAc b (windowAtBurstEnd b (windowAnswer s)
      (if b.candidate && !b.isPartial then quietDeframer (quietAtLi b s) else quietAtLi b s)) := by
  rw [burstEnd]
  by_cases hpasses : (b.candidate && !b.isPartial) = true
  · obtain ⟨hcandidate, hpartial⟩ : b.candidate = true ∧ b.isPartial = false := by simpa using hpasses
    have hdiscard : (quietAtLi b s).fu.deframer.phase = .discard := h hcandidate hpartial
    simp only [if_pos hpasses, candidateEnd_of_discard hdiscard]
  · simp only [if_neg hpasses]

theorem burstEnd_discard_blocks {b : Burst} {s : State}
    (h : b.candidate = true → b.isPartial = false → s.fu.deframer.phase = .discard) :
    (burstEnd b s).fu.framer = s.fu.framer ∧
      (burstEnd b s).fu.deframer = (if b.candidate && !b.isPartial then Deframer.initial else s.fu.deframer) ∧
      MessagesKept s (burstEnd b s) := by
  rw [burstEnd_of_discard h]
  split_ifs <;> simp [windowAtBurstEnd_keeps, MessagesKept, HostSideKept]

/-- The window at the end of a burst, by its state (R32). -/
structure WindowEnds (b : Burst) (answer : Option AnswerCode) (w w' : Window) : Prop where
  armed : ∀ k d q, w = .opened k d q false → w' = .opened k d q true
  kept : b.isOwn = true ∨ b.isPartial = true → ∀ k d q, w = .opened k d q true → w' = w
  judged : b.isOwn = false → b.isPartial = false → ∀ k d q, w = .opened k d q true → w' = .judged k d q answer
  closed : (∀ k d q x, w ≠ .opened k d q x) → w' = w

theorem windowAtBurstEnd_ends (b : Burst) (answer : Option AnswerCode) (s : State) :
    WindowEnds b answer s.fu.window (windowAtBurstEnd b answer s).fu.window where
  armed k d q h := by simp [windowAtBurstEnd, h]
  kept hb k d q h := by
    have hcond : (b.isOwn || b.isPartial) = true := by simpa using hb
    simp [windowAtBurstEnd, h, hcond]
  judged hown hpartial k d q h := by simp [windowAtBurstEnd, judgeWindow, h, hown, hpartial]
  closed h := by
    cases hw : s.fu.window with
    | opened k d q x => exact absurd hw (h k d q x)
    | judged k d q a => simp [windowAtBurstEnd, hw]
    | closed => simp [windowAtBurstEnd, hw]

theorem burstEnd_window {b : Burst} {s : State}
    (h : b.candidate = true → b.isPartial = false → s.fu.deframer.phase = .discard) :
    WindowEnds b (windowAnswer s) s.fu.window (burstEnd b s).fu.window := by
  have hends (u : State) (hu : u.fu.window = s.fu.window) :
      WindowEnds b (windowAnswer s) s.fu.window (burstEndAtAc b (windowAtBurstEnd b (windowAnswer s) u)).fu.window := by
    rw [(burstEndAtAc_frame b _).2.1, ← hu]
    exact windowAtBurstEnd_ends b _ u
  rw [burstEnd_of_discard h]
  split_ifs
  · exact hends _ (by simp)
  · exact hends _ (by simp)

theorem burstEndAtAc_tracker (b : Burst) (s : State) : (burstEndAtAc b s).ac.tracker = { s.ac.tracker with
    guard := if s.ac.tracker.phase = .access ∨ s.ac.tracker.phase = .unaligned then some 2 else s.ac.tracker.guard
    access := { s.ac.tracker.access with
      observed := if b.isMark && s.ac.tracker.access.burstSlot.isSome then s.ac.tracker.access.burstSlot
        else s.ac.tracker.access.observed
      burstSlot := none
      following := false } } := by
  have hphase : (s.ac.tracker.phase == .access || s.ac.tracker.phase == .unaligned) = true ↔
      s.ac.tracker.phase = .access ∨ s.ac.tracker.phase = .unaligned := by simp
  rw [← if_congr hphase rfl rfl]
  rfl

/-- The AC at the end of a burst with no frame end (R36, R38, R53). -/
theorem burstEnd_tracker {b : Burst} {s : State}
    (h : b.candidate = true → b.isPartial = false → s.fu.deframer.phase = .discard) :
    (burstEnd b s).ac.tracker = { s.ac.tracker with
      guard := if s.ac.tracker.phase = .access ∨ s.ac.tracker.phase = .unaligned then some 2 else s.ac.tracker.guard
      access := { s.ac.tracker.access with
        observed := if b.isMark && s.ac.tracker.access.burstSlot.isSome then s.ac.tracker.access.burstSlot
          else s.ac.tracker.access.observed
        burstSlot := none
        following := false } } := by
  have hac (u : State) (hu : u.ac = s.ac) : (windowAtBurstEnd b (windowAnswer s) u).ac = s.ac := by simp [hu]
  rw [burstEnd_of_discard h, burstEndAtAc_tracker, hac]
  by_cases hpasses : (b.candidate && !b.isPartial) = true <;> simp [hpasses]

theorem windowAnswer_eq_none {s : State} (h : s.fu.deframer.phase ≠ .tail) : windowAnswer s = none := by
  unfold windowAnswer
  split
  · simp [Deframer.endsGood, h]
  · rfl

/-- Settles O26: a burst that the deframer does not read, or reads no more, ends with no frame end; a mark sets the observed
slot. -/
theorem quietEventEndsBurst : Obligations.QuietEventEndsBurst := by
  refine ⟨fun s b hfollows hends hpartial hnew hshort => ?mark, fun s b hends hother => ?other⟩
  case mark =>
    have hdiscard : b.candidate = true → b.isPartial = false → s.fu.deframer.phase = .discard := by simp [hnew]
    have hquiet : s.fu.deframer.phase = .quiet := by
      obtain ⟨-, -, hb, -⟩ := hends
      refine ((deframerFollowsCandidate_iff s).mp hfollows).resolve_right ?_
      simp [passesReadings, hb, hnew]
    have hanswer : windowAnswer s = none := windowAnswer_eq_none (by simp [hquiet])
    have hmark : b.isMark = true := by simp [Burst.isMark, hpartial, hshort]
    obtain ⟨hframer, hdeframer, hmessages⟩ := burstEnd_discard_blocks hdiscard
    have hwindow := burstEnd_window hdiscard
    rw [hanswer] at hwindow
    refine ⟨_, exec_quietEvent_of_mayEnd hends, burstEnd_li b s, by simpa [hnew] using hdeframer, hframer,
      fun k d q hw hown => hwindow.judged hown hpartial k d q hw, fun k d q hw hown => hwindow.kept (.inl hown) k d q hw,
      hwindow.armed, hwindow.closed, ?_, (burstEnd_watches b s).order, hmessages⟩
    rw [burstEnd_tracker hdiscard]
    cases hslot : s.ac.tracker.access.burstSlot <;> simp [hmark]
  case other =>
    have hdiscard : b.candidate = true → b.isPartial = false → s.fu.deframer.phase = .discard := fun _ hpartial =>
      (hother.resolve_left (by simp [hpartial])).2.2.2
    have hmark : b.isMark = false := by
      obtain hpartial | ⟨-, -, hlong, -⟩ := hother
      · simp [Burst.isMark, hpartial]
      · simp [Burst.isMark]
        omega
    have hcandidate : (b.candidate && !b.isPartial) = !b.isPartial := by
      obtain hpartial | ⟨hpartial, hcandidate, -⟩ := hother
      · simp [hpartial]
      · simp [hcandidate]
    obtain ⟨hframer, hdeframer, hmessages⟩ := burstEnd_discard_blocks hdiscard
    have hwindow := burstEnd_window hdiscard
    refine ⟨_, exec_quietEvent_of_mayEnd hends, burstEnd_li b s, ?_, hframer,
      fun hb k d q hw => hwindow.kept hb.symm k d q hw, fun hpartial hown k d q hw => ?_, hwindow.closed, hwindow.armed, ?_,
      (burstEnd_watches b s).order, hmessages⟩
    · rw [hdeframer, hcandidate]
      cases b.isPartial <;> rfl
    · have hanswer : windowAnswer s = none := windowAnswer_eq_none (by
        rw [(hother.resolve_left (by simp [hpartial])).2.2.2]
        decide)
      rw [hanswer] at hwindow
      exact hwindow.judged hown hpartial k d q hw
    · rw [burstEnd_tracker hdiscard, hmark]
      rfl

end Sys2Proof.Machine
end

section
/-! Echo mismatches (chapters 01 and 03): the mark that is withdrawn, the answer that is lost, the frame that collides. -/

namespace Sys2Proof.Machine

/-! ### An aborted attempt and a withdrawn claim (R41, R110) -/

/-- Without a cancel pending the attempt's end touches the entry alone. -/
theorem abortAttempt_peers {s : State} {tag : Tag} (h : ∀ e, findEntry s tag = some e → e.cancelPending = false) :
    (abortAttempt tag s).peers = s.peers := by
  unfold abortAttempt
  split
  case h_1 => rfl
  case h_2 e he => simp [h e he]

theorem withdrawClaim_of_other {c : OwnClaim} {s : State} (hc : s.ac.tracker.access.claim = some c)
    (h : ∀ tag, c.content ≠ .entry tag) : withdrawClaim s = setProgress .withdrawn s := by
  simp only [withdrawClaim, hc]
  split
  case h_1 tag hcontent => exact absurd hcontent (h tag)
  case h_2 => rfl
  case h_3 => rfl

theorem withdrawClaim_of_entry {c : OwnClaim} {s : State} {tag : Tag} (hc : s.ac.tracker.access.claim = some c)
    (h : c.content = .entry tag) : withdrawClaim s = abortAttempt tag (setProgress .withdrawn s) := by
  simp only [withdrawClaim, hc, h]

theorem withdrawClaim_ac {c : OwnClaim} {s : State} (hc : s.ac.tracker.access.claim = some c) :
    (withdrawClaim s).ac = (setProgress .withdrawn s).ac := by
  by_cases h : ∃ tag, c.content = .entry tag
  · obtain ⟨tag, h⟩ := h
    simp [withdrawClaim_of_entry hc h]
  · rw [withdrawClaim_of_other hc (not_exists.mp h)]

/-- Settles O28: the burst goes partial whoever owns it; a claim that is MARKED is withdrawn with its attempt. -/
theorem echoMismatchOfMarkOrAnswer : Obligations.EchoMismatchOfMarkOrAnswer := by
  intro s x hx howner
  obtain ⟨hmarked, hkept, hclaim⟩ := markPartial_marked s
  have hframe := markPartial_frame (releaseDriver s)
  obtain ⟨hpeers, hte, hfree, hhp, hnotices, hheld, hchoice, hpending⟩ := hframe
  have hframer : (markPartial (releaseDriver s)).fu.framer = s.fu.framer := rfl
  have hprogress : claimProgress (markPartial (releaseDriver s)) = claimProgress s := by simp [claimProgress, hclaim]
  simp only [releaseDriver_frame] at hpeers hte hfree hhp hnotices hheld hchoice hpending
  rw [exec_echoMismatch_of_tx hx]
  generalize markPartial (releaseDriver s) = q at *
  obtain ⟨owner, symbols, start⟩ := x
  cases owner with
  | frame => exact absurd rfl howner
  | answer =>
    refine ⟨setFramer .idle q, rfl, hmarked.of_eq rfl rfl rfl rfl rfl, hnotices, hkept.trans (.of_eq rfl), hchoice,
      ⟨hhp, hheld, hpending⟩, fun _ => rfl, fun h => by simp at h, fun _ => ⟨hclaim, hte, hpeers, hfree⟩, fun h => by simp at h⟩
  | mark =>
    by_cases hmark : claimProgress q = some .marked
    · have hnext : mismatchAtOwner .mark q = withdrawClaim q := if_pos (by simp [hmark])
      obtain ⟨c₀, hc₀, -⟩ := Option.map_eq_some_iff.mp hmark
      refine ⟨withdrawClaim q, congrArg Host.Outcome.next hnext, hmarked.of_eq (by simp) (by simp) (by simp) (by simp) ?_,
        by simpa using hnotices, hkept.trans (withdrawClaim_orderKept q), by simpa using hchoice,
        ⟨by simpa using hhp, by simpa using hheld, by simpa using hpending⟩, fun h => by simp at h, fun _ => by simpa using hframer,
        fun h => ?_, fun _ c hc hcmarked => ⟨?_, fun hother => ?_, fun tag e hentry he => ?_⟩⟩
      · simp [withdrawClaim_ac hc₀]
      · rw [← hprogress] at h
        simp [hmark] at h
      · simp [withdrawClaim_ac hc₀, hclaim, hc]
      · rw [withdrawClaim_of_other (hclaim.trans hc) hother]
        exact ⟨by simpa using hte, by simpa using hpeers, by simpa using hfree⟩
      · rw [withdrawClaim_of_entry (hclaim.trans hc) hentry]
        have hfound : findEntry (setProgress .withdrawn q) tag = some e := by simpa [findEntry, hte] using he
        obtain ⟨hback, hcancelled⟩ := abortAttempt_found hfound
        refine ⟨fun hpending => ?_, fun hpending => ?_⟩
        · obtain ⟨hqueue, hblocks⟩ := hback hpending
          refine ⟨by simpa [hte] using hqueue, ?_, by simpa [hfree] using hblocks⟩
          rw [abortAttempt_peers fun e' he' => by rwa [Option.some.inj (he'.symm.trans hfound)]]
          simpa using hpeers
        · simpa [Finished, hte, hfree] using hcancelled hpending
    · have hnext : mismatchAtOwner .mark q = q := if_neg (by simp [hmark])
      refine ⟨q, congrArg Host.Outcome.next hnext, hmarked, hnotices, hkept, hchoice, ⟨hhp, hheld, hpending⟩,
        fun h => by simp at h, fun _ => hframer, fun _ => ⟨hclaim, hte, hpeers, hfree⟩, fun _ c hc hcmarked => ?_⟩
      refine absurd ?_ hmark
      simp [claimProgress, hclaim, hc, hcmarked]

/-! ### A collision of an own frame (R59, R73) -/

/-- The fourth collision of an ORDER-RESET in the address slot takes the station to HALTED (R73). -/
def FourthCollision (c : OwnClaim) (s : State) : Prop :=
  c.content = .orderReset ∧ (∃ k, c.slot = some k ∧ k < s.ac.setup.roster) ∧ s.ac.collisions = 3

theorem addressSlotClaim_iff {s : State} {c : OwnClaim} : addressSlotClaim s c = true ↔
    c.content = .orderReset ∧ ∃ k, c.slot = some k ∧ k < s.ac.setup.roster := by
  rw [addressSlotClaim, Bool.and_eq_true, beq_iff_eq]
  refine and_congr_right fun _ => ?_
  cases hslot : c.slot with
  | none => simp
  | some k => simp only [Option.some.injEq, exists_eq_left']; exact decide_eq_true_iff

/-- A collision, beside what it does to the message: the station halts at the fourth, and otherwise the claim and the count
of collisions are all that changes (R59, R73). -/
theorem frameMismatch_cases {c : OwnClaim} {s : State} (hc : s.ac.tracker.access.claim = some c) (hle : s.ac.collisions ≤ 3) :
    (FourthCollision c s ∧ ∃ u, frameMismatch s = halt u ∧ u.li = s.li ∧ u.peers = s.peers ∧
        u.ac.order = s.ac.order ∧ u.ac.setup = s.ac.setup ∧ u.ac.restartPending = s.ac.restartPending ∧ u.re = s.re) ∨
      (¬FourthCollision c s ∧ (frameMismatch s).li = s.li ∧ (frameMismatch s).fu = s.fu ∧ (frameMismatch s).re = s.re ∧
        (∃ n, (frameMismatch s).ac = { (setProgress .mismatched s).ac with collisions := n }) ∧
        ((∀ tag e, c.content = .entry tag → findEntry s tag = some e → e.cancelPending = false) →
          (frameMismatch s).peers = s.peers)) := by
  by_cases haddress : addressSlotClaim s c = true
  · obtain ⟨hcontent, hslot⟩ := addressSlotClaim_iff.mp haddress
    by_cases hfourth : s.ac.collisions = 3
    · refine .inl ⟨⟨hcontent, hslot, hfourth⟩, ?_⟩
      simp only [frameMismatch, hc, hcontent, if_pos haddress]
      rw [if_pos (by simp [hfourth])]
      exact ⟨_, rfl, rfl, rfl, rfl, rfl, rfl, rfl⟩
    · refine .inr ⟨fun h => hfourth h.2.2, ?_⟩
      simp only [frameMismatch, hc, hcontent, if_pos haddress]
      rw [if_neg (by simp; omega)]
      exact ⟨rfl, rfl, rfl, ⟨_, rfl⟩, fun _ => rfl⟩
  · refine .inr ⟨fun h => haddress (addressSlotClaim_iff.mpr ⟨h.1, h.2.1⟩), ?_⟩
    simp only [frameMismatch, hc, if_neg haddress]
    split
    case h_1 tag hcontent =>
      refine ⟨by simp, by simp, by simp, ⟨s.ac.collisions, by simp⟩, fun hnone => ?_⟩
      exact abortAttempt_peers (s := setProgress .mismatched s) fun e he => hnone tag e hcontent he
    all_goals exact ⟨rfl, rfl, rfl, ⟨_, rfl⟩, fun _ => rfl⟩

/-- Settles O29: the burst goes partial and the framer idle, and then the frame has collided. -/
theorem echoMismatchOfFrameIsCollision : Obligations.EchoMismatchOfFrameIsCollision := by
  intro s x c hx howner hc hle
  obtain ⟨hmarked, hkept, hclaim⟩ := markPartial_marked s
  obtain ⟨hstation, hsetup, horder, hrestart, hcollisions⟩ := (orderKept_iff _ _).mp hkept
  obtain ⟨hpeers, hte, hfree, hhp, hnotices, hheld, hchoice, hpending⟩ := markPartial_frame (releaseDriver s)
  simp only [releaseDriver_frame] at hpeers hte hfree hhp hnotices hheld hchoice hpending
  have hoff : { (markPartial (releaseDriver s)).li with sensing := .off, tx := none, burst := none, stuckTimer := 0 } =
      { s.li with sensing := .off, tx := none, burst := none, stuckTimer := 0 } := rfl
  have htime : (markPartial (releaseDriver s)).li.time = s.li.time := rfl
  have hrelease : (markPartial (releaseDriver s)).li.tx = none := rfl
  have hstaging : (markPartial (releaseDriver s)).re = { s.re with staging := none } := rfl
  rw [exec_echoMismatch_of_tx hx, howner]
  generalize markPartial (releaseDriver s) = q at *
  have hcollided : Collided c s (frameMismatch (setFramer .idle q)) :=
    (frameMismatch_collided (s := setFramer .idle q) (hclaim.trans hc) (by simpa [hcollisions] using hle)).of_eq (by simpa using hte)
      (by simpa using hfree) (by simpa using hnotices) (by simpa using hhp) (by simpa using hsetup) (by simpa using hcollisions)
      (by simpa using hstation)
  have hside : HostSideKept s (frameMismatch (setFramer .idle q)) :=
    ⟨by simpa using hhp, by simpa using hheld, by simpa using hpending⟩
  have hfourth : FourthCollision c (setFramer .idle q) ↔ FourthCollision c s := by
    simp [FourthCollision, hsetup, hcollisions]
  refine ⟨frameMismatch (setFramer .idle q), rfl, ?_⟩
  obtain ⟨hhalts, u, hu, huli, hupeers, huorder, husetup, hurestart, hure⟩ | ⟨hno, hli, hfu, hre, ⟨n, hac⟩, hpeers'⟩ :=
    frameMismatch_cases (s := setFramer .idle q) (hclaim.trans hc) (by simpa [hcollisions] using hle)
  · obtain ⟨hhli, hhfu, hhac, hhre, -⟩ := halt_writes u
    have hhaltspeers (a : Nat) : peerEntry (halt u) a = PeerEntry.freeze s.li.time (peerEntry s a) := by
      rw [peerEntry_halt, huli, peerEntry_congr (hupeers.trans hpeers)]
      exact congrArg (PeerEntry.freeze · _) htime
    rw [hu] at hcollided hside ⊢
    refine ⟨by simp, by simp [FrameUnit.initial], ?_, ?_, ?_, ?_, hside, hcollided, fun h => absurd (hfourth.mp hhalts) h,
      fun _ => ⟨?_, hhfu, fun a => ?_⟩⟩
    · rw [hhac]
      exact huorder.trans horder
    · rw [hhac]
      exact husetup.trans hsetup
    · rw [hhac]
      exact hurestart.trans hrestart
    · rw [hhre, hure]
      simp [hstaging]
    · rw [hhli, huli]
      exact hoff
    · exact (hhaltspeers a).trans (PeerEntry.freeze_eq _ _)
  · refine ⟨by rw [hli]; exact hrelease, by rw [hfu]; rfl, by rw [hac]; exact horder, by rw [hac]; exact hsetup,
      by rw [hac]; exact hrestart, by rw [hre]; exact hstaging, hside, hcollided, fun _ => ⟨?_, fun hnone => ?_⟩,
      fun h => absurd (hfourth.mpr h) hno⟩
    · refine hmarked.of_eq hli (by rw [hfu]; rfl) (by rw [hfu]; rfl) hre ?_
      rw [hac]
      rfl
    · refine (hpeers' fun tag e hentry he => hnone tag e hentry ?_).trans hpeers
      simpa [findEntry, hte] using he

end Sys2Proof.Machine
end

section
/-! The stuck line and the free line (chapter 01). -/

namespace Sys2Proof.Machine

/-! ### The outcome at the stuck event and at the access end (R116) -/

/-- With no passed claim that carries an entry, only the answer window closes. -/
theorem takeOutcome_of_not_due {s : State} (h : outcomeDue s = false) : takeOutcome s = setWindow .closed s := by
  cases hc : s.ac.tracker.access.claim with
  | none => simp [takeOutcome, hc]
  | some c =>
    simp only [takeOutcome, hc]
    split
    case h_1 tag hpassed hcontent => simp [outcomeDue, hc, hpassed, hcontent] at h
    case h_2 => rfl

theorem takeOutcome_window (s : State) : (takeOutcome s).fu.window = .closed := by
  obtain ⟨-, -, -, -, hfu⟩ := takeOutcome_keeps s
  rw [hfu]

theorem stuckNotices_window (s : State) : (stuckNotices s).fu.window = .closed := by
  unfold stuckNotices
  split_ifs
  · simpa using takeOutcome_window _
  · exact takeOutcome_window _
  · exact takeOutcome_window _

/-- LINE-STUCK alone is raised (R14). -/
theorem stuckNotices_of_not_due {s : State} (h : outcomeDue s = false) :
    stuckNotices s = setWindow .closed (raise .lineStuck none none s) := by
  have hdue : outcomeDue (raise .lineStuck none none s) = false := h
  simp [stuckNotices, h, takeOutcome_of_not_due hdue]

/-! ### The stuck event (R14, R52) -/

/-- What stands at the stuck event when the station state answers. -/
def atStuck (s : State) : State :=
  onAccess (fun _ => AccessRecord.empty) (stuckNotices (onLi (fun l => { l with sensing := .stuck })
    (passTime (stuckLimit - s.li.stuckTimer) s)))

theorem declareStuck_eq (s : State) : declareStuck s = stationAtStuck (atStuck s) := rfl

theorem atStuck_station (s : State) : (atStuck s).ac.station = s.ac.station := by simp [atStuck]

theorem atStuck_ac (s : State) : (atStuck s).ac = { s.ac with tracker := (atStuck s).ac.tracker } := by
  have hkept := (passTime_watches (stuckLimit - s.li.stuckTimer) s).order
  rw [OrderKept] at hkept
  simp only [atStuck, onAccess_ac, stuckNotices_frame, onLi_ac]
  rw [hkept]

theorem atStuck_tracker (s : State) : (atStuck s).ac.tracker.access = AccessRecord.empty ∧
    (atStuck s).ac.tracker.phase = s.ac.tracker.phase := by
  simp [atStuck]

/-- The stuck timer stands at its limit (R14). -/
theorem atStuck_li {s : State} (h : s.li.sensing = .active) (hx : s.li.tx = none) (htimer : s.li.stuckTimer ≤ stuckLimit) :
    (atStuck s).li.sensing = .stuck ∧ (atStuck s).li.stuckTimer = stuckLimit := by
  refine ⟨by simp [atStuck], ?_⟩
  have hfull : s.li.stuckTimer + (stuckLimit - s.li.stuckTimer) = stuckLimit := by omega
  simp [atStuck, passTime_of_active h, passDriven, h, hx, hfull]

theorem atStuck_window (s : State) : (atStuck s).fu.window = .closed := stuckNotices_window _

theorem outcomeDue_congr {s t : State} (h : t.ac.tracker.access.claim = s.ac.tracker.access.claim) :
    outcomeDue t = outcomeDue s := by
  rw [outcomeDue, outcomeDue, h]

theorem atStuck_of_not_due {s : State} (h : outcomeDue s = false) :
    (atStuck s).notices = addNotice (underRead s) { kind := .lineStuck, subject := none, detail := none } s.notices ∧
      (atStuck s).te = s.te ∧ (atStuck s).peers = s.peers ∧ (atStuck s).freeBlocks = s.freeBlocks := by
  have hdue : outcomeDue (onLi (fun l => { l with sensing := .stuck }) (passTime (stuckLimit - s.li.stuckTimer) s)) = false :=
    (outcomeDue_congr (by simp)).trans h
  have hreading : underRead (onLi (fun l => { l with sensing := .stuck }) (passTime (stuckLimit - s.li.stuckTimer) s)) =
      underRead s := underRead_congr (by simp)
  rw [atStuck, stuckNotices_of_not_due hdue]
  exact ⟨by simp [hreading], by simp, by simp, by simp⟩

theorem stationAtStuck_of_leaving {s : State} (h : s.ac.station = .leaving) : stationAtStuck s = enterOffline s := by
  rw [stationAtStuck, h]

theorem stationAtStuck_of_online {s : State} (h : s.ac.station = .online) : stationAtStuck s = setStation .resync s := by
  rw [stationAtStuck, h]

theorem stationAtStuck_of_other {s : State} (hleaving : s.ac.station ≠ .leaving) (honline : s.ac.station ≠ .online) :
    stationAtStuck s = s := by
  rw [stationAtStuck]
  split <;> simp_all

/-- The blocks that the station's answer leaves, unless it leaves the line (R52). -/
theorem stationAtStuck_keeps {s : State} (h : s.ac.station ≠ .leaving) :
    (stationAtStuck s).li = s.li ∧ (stationAtStuck s).fu = s.fu ∧ (stationAtStuck s).te = s.te ∧
      (stationAtStuck s).peers = s.peers ∧ (stationAtStuck s).freeBlocks = s.freeBlocks ∧
      (stationAtStuck s).ac.tracker = s.ac.tracker ∧ (stationAtStuck s).ac.restartPending = s.ac.restartPending ∧
      (stationAtStuck s).ac.station = (if s.ac.station = .online then .resync else s.ac.station) := by
  by_cases honline : s.ac.station = .online
  · rw [stationAtStuck_of_online honline, if_pos honline]
    exact ⟨rfl, rfl, rfl, rfl, rfl, rfl, rfl, rfl⟩
  · rw [stationAtStuck_of_other h honline, if_neg honline]
    exact ⟨rfl, rfl, rfl, rfl, rfl, rfl, rfl, rfl⟩

theorem stationAtStuck_collisions (s : State) : (stationAtStuck s).ac.collisions = s.ac.collisions := by
  by_cases h : s.ac.station = .leaving
  · simp [stationAtStuck_of_leaving h]
  · by_cases honline : s.ac.station = .online
    · rw [stationAtStuck_of_online honline]
      rfl
    · rw [stationAtStuck_of_other h honline]

/-! ### The free event (R15) -/

theorem passTime_zero_of_stuck {s : State} (h : s.li.sensing = .stuck) : passTime 0 s = s := by
  have hburst : s.li.burst.map (Burst.lengthen 0) = s.li.burst := by cases s.li.burst <;> rfl
  have hcond : (s.li.sensing == .stuck) = true := by simp [h]
  rw [passTime, h]
  simp only [passDriven, onLi, hburst, hcond, Nat.add_zero, if_true]

/-- Settles O30: at the stuck event LINE-STUCK, the outcome of a passed claim, an empty access record and the station's
answer; at the free event LINE-FREE and the end of the burst. -/
theorem stuckAndFreeLine : Obligations.StuckAndFreeLine := by
  refine ⟨fun s hactive hx hsettled htimer => ?stuck, fun s b hstuck hb hlong hdiscard => ?free⟩
  case stuck =>
    have hexec : exec .stuck s = .next (declareStuck s) := by
      simp [exec, execStuck, hactive, driving, hx, hsettled]
    have hstaged := declareStuck_staged s
    have hlist := declareStuck_list s
    have hac := atStuck_ac s
    obtain ⟨haccess, hphase⟩ := atStuck_tracker s
    obtain ⟨hsensing, hlimit⟩ := atStuck_li hactive hx htimer
    have hstation := atStuck_station s
    refine ⟨declareStuck s, hexec, ?access, hlist.order, hlist.setup, ?collisions, hstaged.ring, hstaged.missed, ?window,
      by simp [HostSideKept], fun hleaving => ?leaving, fun hother => ?other, fun hdue => ?notice⟩
    case access =>
      rw [declareStuck_eq]
      by_cases hleaving : (atStuck s).ac.station = .leaving
      · rw [stationAtStuck_of_leaving hleaving]
        simp [RoundTracker.initial]
      · rw [(stationAtStuck_keeps hleaving).2.2.2.2.2.1, haccess]
    case collisions => rw [declareStuck_eq, stationAtStuck_collisions, hac]
    case window =>
      rw [declareStuck_eq]
      by_cases hleaving : (atStuck s).ac.station = .leaving
      · rw [stationAtStuck_of_leaving hleaving]
        simp [FrameUnit.initial]
      · rw [(stationAtStuck_keeps hleaving).2.1, atStuck_window]
    case leaving =>
      rw [declareStuck_eq, stationAtStuck_of_leaving (hstation.trans hleaving)]
      exact ⟨by simp, by simp, enterOffline_queue _, by simp⟩
    case other =>
      have hleaving : (atStuck s).ac.station ≠ .leaving := by
        rw [hstation]
        obtain h | h | h := hother <;> simp [h]
      obtain ⟨hli, -, -, -, -, htracker, hrestart, hnext⟩ := stationAtStuck_keeps hleaving
      rw [declareStuck_eq, hnext, hli, htracker, hrestart, hstation]
      exact ⟨rfl, hsensing, hlimit, hphase, by rw [hac]⟩
    case notice =>
      obtain ⟨hnotices, hte, hpeers, hfree⟩ := atStuck_of_not_due hdue
      rw [declareStuck_eq]
      refine ⟨by rw [(stationAtStuck_frame _).2.1, hnotices], fun hleaving => ?_⟩
      obtain ⟨-, -, hte', hpeers', hfree', -⟩ := stationAtStuck_keeps (s := atStuck s) (by rwa [hstation])
      exact ⟨hte'.trans hte, hpeers'.trans hpeers, hfree'.trans hfree⟩
  case free =>
    have hexec : exec (.free 0) s = .next (burstEnd b (raise .lineFree none none s)) := by
      simp [exec, execFree, hstuck, passTime_zero_of_stuck hstuck, declareFree, quietEvent, hb]
    have hdiscard' : b.candidate = true → b.isPartial = false →
        (raise .lineFree none none s).fu.deframer.phase = .discard := fun hcandidate hpartial => hdiscard ⟨hpartial, hcandidate⟩
    have hmark : b.isMark = false := by
      simp [Burst.isMark]
      omega
    obtain ⟨hframer, hdeframer, hte, hre, hfree, hpeers, hnotices, -, hside⟩ := burstEnd_discard_blocks hdiscard'
    refine ⟨_, hexec, burstEnd_li b _, (burstEnd_window hdiscard').closed, hframer, hnotices, ?_, fun ⟨hpartial, hcandidate⟩ => ?_,
      ?_, hte, by rw [hre]; rfl, hpeers, hfree, hside⟩
    · rw [burstEnd_tracker hdiscard', hmark]
      rfl
    · rw [hdeframer, hcandidate, hpartial]
      rfl
    · exact (OrderKept.of_eq rfl).trans (burstEnd_watches b _).order

end Sys2Proof.Machine
end

section
/-! An entry that finishes (chapter 07), and the entry that the TE selects. -/

namespace Sys2Proof.Machine

/-! ### Finishing (R94, R117) -/

/-- The next send sequence goes on from 15 to 0 (R94). -/
theorem nextSend_wraps {q : Seq} (h : q = 15) : q + 1 = 0 := by
  rw [h]
  rfl

/-- The Peer Table of an address that the finishing entry is not for, or whose entry holds no sequence. -/
theorem peerEntry_finishEntry_other {s : State} {tag : Tag} {e : TxEntry} (h : findEntry s tag = some e)
    (outcome : MessageOutcome) (note : Bool) {x : Nat} (hx : e.destination ≠ .peer x ∨ e.sequence = none) :
    peerEntry (finishEntry tag outcome note s) x = peerEntry s x := by
  by_cases hin : x < 32
  · have hnot : ¬(e.destination = .peer x ∧ e.sequence ≠ none) := by tauto
    rw [peerEntry_finishEntry h outcome note hin, if_neg hnot]
    simp
  · rw [peerEntry_outside _ (by omega), peerEntry_outside _ (by omega)]

/-- Settles O52, by what finishing does to the queue, to the pool and to the Peer Table. -/
theorem finishingReturnsBlocksAndAdvances : Obligations.FinishingReturnsBlocksAndAdvances := by
  intro s tag e outcome note h t
  refine ⟨finishEntry_finished h outcome note, fun a q hd hq ha => ?_, fun x hx => peerEntry_finishEntry_other h outcome note hx,
    by simp [t], by simp [t], by simp [t], by simp [t], by simp [t], by simp [t]⟩
  have hpeer : peerEntry t a = { peerEntry s a with nextSend := (peerEntry s a).nextSend + 1 } := by
    rw [peerEntry_finishEntry h outcome note ha, if_pos ⟨hd, by simp [hq]⟩]
  refine ⟨hpeer, fun hlast => ?_⟩
  rw [hpeer]
  exact nextSend_wraps hlast

/-! ### The selection (R108, R109) -/

/-- The entry selected from the rest of a queue is eligible, and none before it is. -/
theorem selectFrom_eq_some {s : State} {e : TxEntry} (rest : List TxEntry) (older : List TxEntry) :
    selectFrom s older rest = some e ↔ ∃ before newer, rest = before ++ e :: newer ∧ eligible s (older ++ before) e = true ∧
      ∀ l x r, before = l ++ x :: r → eligible s (older ++ l) x = false := by
  induction rest generalizing older with
  | nil => simp [selectFrom]
  | cons y rest ih =>
    rw [selectFrom]
    by_cases hy : eligible s older y = true
    · rw [if_pos hy]
      constructor
      · rintro ⟨⟩
        exact ⟨[], rest, rfl, by simpa using hy, by simp⟩
      · rintro ⟨before, newer, hsplit, -, hnone⟩
        cases before with
        | nil => simpa using congrArg List.head? hsplit
        | cons z before =>
          obtain ⟨rfl, -⟩ := List.cons.inj hsplit
          have hfalse := hnone [] y before rfl
          simp [hy] at hfalse
    · rw [if_neg hy, ih]
      constructor
      · rintro ⟨before, newer, rfl, he, hnone⟩
        refine ⟨y :: before, newer, rfl, by simpa using he, fun l x r hsplit => ?_⟩
        cases l with
        | nil =>
          obtain ⟨rfl, -⟩ := List.cons.inj hsplit
          simpa using hy
        | cons z l =>
          obtain ⟨rfl, htail⟩ := List.cons.inj hsplit
          simpa using hnone l x r htail
      · rintro ⟨before, newer, hsplit, he, hnone⟩
        cases before with
        | nil =>
          obtain ⟨rfl, -⟩ := List.cons.inj hsplit
          exact absurd (by simpa using he) hy
        | cons z before =>
          obtain ⟨rfl, rfl⟩ := List.cons.inj hsplit
          exact ⟨before, newer, rfl, by simpa using he, fun l x r hl => by simpa using hnone (y :: l) x r (by rw [hl]; rfl)⟩

/-- No entry is selected exactly when none is eligible. -/
theorem selectFrom_eq_none {s : State} (rest : List TxEntry) (older : List TxEntry) :
    selectFrom s older rest = none ↔ ∀ l x r, rest = l ++ x :: r → eligible s (older ++ l) x = false := by
  induction rest generalizing older with
  | nil => simp [selectFrom]
  | cons y rest ih =>
    rw [selectFrom]
    by_cases hy : eligible s older y = true
    · rw [if_pos hy]
      refine ⟨nofun, fun h => ?_⟩
      have hfalse := h [] y rest rfl
      simp [hy] at hfalse
    · rw [if_neg hy, ih]
      constructor
      · intro hnone l x r hsplit
        cases l with
        | nil =>
          obtain ⟨rfl, -⟩ := List.cons.inj hsplit
          simpa using hy
        | cons z l =>
          obtain ⟨rfl, htail⟩ := List.cons.inj hsplit
          simpa using hnone l x r htail
      · intro h l x r hl
        simpa using h (y :: l) x r (by rw [hl]; rfl)

theorem heldOff_iff {s : State} {d : Destination} :
    heldOff s d = true ↔ ∃ a, d = .peer a ∧ (peerEntry s a).holdOff ≠ none := by
  cases d with
  | peer a => simp [heldOff, Option.ne_none_iff_isSome]
  | all => simp [heldOff]

/-- What makes an entry eligible (R108). -/
theorem eligible_iff {s : State} {older : List TxEntry} {e : TxEntry} : eligible s older e = true ↔
    e.state = .waiting ∧ (∀ o ∈ older, o.destination ≠ e.destination) ∧
      ∀ a, e.destination = .peer a → (peerEntry s a).holdOff = none := by
  have hheld : heldOff s e.destination = false ↔ ∀ a, e.destination = .peer a → (peerEntry s a).holdOff = none := by
    rw [← Bool.not_eq_true, heldOff_iff]
    push Not
    rfl
  simp [eligible, hheld, and_assoc]

/-- What keeps an entry from being eligible (R108). -/
theorem not_eligible_iff {s : State} {older : List TxEntry} {e : TxEntry} : eligible s older e = false ↔
    e.state ≠ .waiting ∨ (∃ o ∈ older, o.destination = e.destination) ∨
      ∃ a, e.destination = .peer a ∧ (peerEntry s a).holdOff ≠ none := by
  have holder : (¬∀ o ∈ older, o.destination ≠ e.destination) ↔ ∃ o ∈ older, o.destination = e.destination := by
    push Not
    rfl
  rw [← Bool.not_eq_true, eligible_iff, not_and_or, not_and_or, holder]
  push Not
  rfl

/-- Settles O42: the selection read along the queue, from the oldest entry on. -/
theorem selectionTakesOldestEligible : Obligations.SelectionTakesOldestEligible := by
  intro s
  constructor
  · intro e
    simp only [selectEntry, selectFrom_eq_some, List.nil_append, eligible_iff, not_eligible_iff, and_assoc]
  · simp only [selectEntry, selectFrom_eq_none, List.nil_append, not_eligible_iff]

end Sys2Proof.Machine
end

section
/-! Unclaimed rounds, rest and the wake (chapters 03 and 06). -/

namespace Sys2Proof.Machine

/-! ### Bit times up to a set one -/

theorem runTo_time (n : Nat) {s : State} (h : s.li.sensing ≠ .off) : (runTo n s).li.time = max s.li.time n := by
  rw [runTo, passTime_time _ h]
  omega

/-- The passing of time up to a set bit time leaves what the passing of time leaves. -/
theorem runTo_keeps (n : Nat) (s : State) : (runTo n s).li.sensing = s.li.sensing ∧ (runTo n s).li.tx = s.li.tx ∧
    (runTo n s).ac.station = s.ac.station ∧ (runTo n s).ac.setup = s.ac.setup ∧
    (runTo n s).ac.restartPending = s.ac.restartPending ∧ (runTo n s).ac.tracker.phase = s.ac.tracker.phase ∧
    (runTo n s).ac.tracker.access = s.ac.tracker.access ∧ (runTo n s).ac.tracker.unclaimed = s.ac.tracker.unclaimed ∧
    (runTo n s).ac.tracker.roundStart = s.ac.tracker.roundStart ∧
    (runTo n s).ac.tracker.slotTaken = s.ac.tracker.slotTaken := by
  simp [runTo]

theorem runTo_orderKept (n : Nat) (s : State) : OrderKept s (runTo n s) := (passTime_watches _ s).order

/-- The passing of time touches no message. -/
theorem passTime_messages (n : Nat) (s : State) : MessagesKept s (passTime n s) := by
  simp [MessagesKept, HostSideKept]

theorem runTo_messages (n : Nat) (s : State) : MessagesKept s (runTo n s) := passTime_messages _ s

/-! ### The wake (R47) -/

/-- The wake mark that goes out, and the claim of the wake. -/
def Woken (s t : State) : Prop :=
  t.li.tx = some { owner := .mark, symbols := [true, false, true, false], start := t.li.time } ∧
    t.ac.tracker.access = { s.ac.tracker.access with
      claim := some { slot := none, content := .wake, progress := .wake, markedAt := t.li.time } }

theorem wakeIfNeeded_woken {s : State} (hphase : s.ac.tracker.phase = .rest) (hneed : needToSend s = true)
    (hclaim : claimOpen s = false) (hx : s.li.tx = none) : Woken s (wakeIfNeeded s) := by
  obtain ⟨-, -, -, -, -, hwake⟩ := wakeIfNeeded_spec s
  obtain ⟨hli, hac⟩ := hwake hphase hneed hclaim hx
  rw [Woken, hli, hac]
  exact ⟨rfl, rfl⟩

theorem wakeIfNeeded_of_no_need {s : State} (h : s.ac.tracker.phase ≠ .rest ∨ needToSend s = false) : wakeIfNeeded s = s := by
  obtain ⟨-, -, -, -, hsame, -⟩ := wakeIfNeeded_spec s
  exact hsame h

/-- Of the round tracker a wake changes the access record only. -/
theorem wakeIfNeeded_tracker (s : State) :
    (wakeIfNeeded s).ac.tracker = { s.ac.tracker with access := (wakeIfNeeded s).ac.tracker.access } := by
  simp only [wakeIfNeeded]
  split
  · split <;> simp [setClaim]
  · rfl

theorem wakeIfNeeded_messages (s : State) : MessagesKept s (wakeIfNeeded s) := by
  simp [MessagesKept, HostSideKept]

/-- The need to send hangs on the station state, on restart pending, on the queue and on the Peer Table (R47). -/
theorem needToSend_congr {s t : State} (hstation : t.ac.station = s.ac.station)
    (hrestart : t.ac.restartPending = s.ac.restartPending) (hte : t.te = s.te) (hpeers : t.peers = s.peers) :
    needToSend t = needToSend s := by
  rw [needToSend, needToSend, hstation, hrestart, selectEntry_congr hte hpeers]

/-! ### The hold-off (R99, R100) -/

theorem exec_holdOffExpiry_of_running {a expiry : Nat} {s : State} (h : (peerEntry s a).holdOff = some (.running expiry))
    (hsensing : s.li.sensing ≠ .off) : exec (.holdOffExpiry a) s = .next (expireHoldOff a expiry s) := by
  have hexec : exec (.holdOffExpiry a) s = execHoldOffExpiry a s := rfl
  simp [hexec, execHoldOffExpiry, h, hsensing]

theorem exec_holdOffExpiry_of_off {a : Nat} {s : State} (hsensing : s.li.sensing = .off) :
    exec (.holdOffExpiry a) s = .next s := by
  have hexec : exec (.holdOffExpiry a) s = execHoldOffExpiry a s := rfl
  rw [hexec, execHoldOffExpiry]
  split <;> simp [hsensing]

/-- Settles O45: the expiry of a hold-off, and then the test of the need to send. -/
theorem holdOffExpires : Obligations.HoldOffExpires := by
  intro a expiry s ha
  refine ⟨fun hrunning hsensing => ⟨_, exec_holdOffExpiry_of_running hrunning hsensing, ?_⟩, exec_holdOffExpiry_of_off⟩
  let u := updatePeer a (fun e => { e with holdOff := none }) (runTo expiry s)
  have hu : expireHoldOff a expiry s = wakeIfNeeded u := rfl
  obtain ⟨-, htx, -, -, -, hphase, haccess, -⟩ := runTo_keeps expiry s
  obtain ⟨horder, hphase', htime, hneed, -⟩ := wakeIfNeeded_spec u
  have hsame : OrderKept s u := (runTo_orderKept expiry s).trans (.of_eq (by simp [u]))
  rw [hu, hneed, hphase', htime]
  refine ⟨by simpa [u] using runTo_time expiry hsensing, ?_, by simp [u], by simp [u], by simp [u], by simp [u], by simp [u],
    hsame.trans horder, ⟨by simp [u], by simp [u], by simp [u]⟩, by simpa [u] using hphase, fun hno => ?_, fun hrest hsend hx hclaim => ?_⟩
  · simp [u, updatePeer, peerEntry]
  · rw [wakeIfNeeded_of_no_need (hno.imp_left fun h => by simpa [u, hphase] using h)]
    exact ⟨by simpa [u] using htx, by simpa [u] using haccess⟩
  · have hopen : claimOpen u = false := (claimOpen_congr (by simp [u, haccess])).trans hclaim
    obtain ⟨htx', haccess'⟩ := wakeIfNeeded_woken (s := u) (by simpa [u, hphase] using hrest) hsend hopen (by simpa [u, htx] using hx)
    rw [htime] at htx' haccess'
    exact ⟨htx', by simpa [u, haccess] using haccess'⟩

/-! ### Unclaimed rounds (R46) -/

theorem exec_roundEnd_of_quiet {s : State} (hphase : s.ac.tracker.phase = .round) (hsensing : s.li.sensing = .quiet)
    (hclaim : claimOpen s = false) : exec .roundEnd s = .next (endRound s) := by
  have hexec : exec .roundEnd s = execRoundEnd s := rfl
  simp [hexec, execRoundEnd, hphase, hsensing, hclaim]

/-- A round that is not the eighth in a row to end unclaimed is followed by the next one. -/
theorem endRound_of_early {s : State} (h : s.ac.tracker.unclaimed < 7) :
    endRound s = nextRound (roundEndTime s) (onTracker (fun t => { t with unclaimed := t.unclaimed + 1 })
      (runTo (roundEndTime s) s)) := by
  obtain ⟨-, -, -, -, -, -, -, hunclaimed, -⟩ := runTo_keeps (roundEndTime s) s
  have hearly : (runTo (roundEndTime s) s).ac.tracker.unclaimed + 1 < 8 := by omega
  exact if_pos hearly

/-- The eighth unclaimed round in a row is followed by rest. -/
theorem endRound_of_eighth {s : State} (h : 7 ≤ s.ac.tracker.unclaimed) :
    endRound s = wakeIfNeeded (onTracker (fun t => { t with phase := .rest, unclaimed := 8 }) (runTo (roundEndTime s) s)) := by
  obtain ⟨-, -, -, -, -, -, -, hunclaimed, -⟩ := runTo_keeps (roundEndTime s) s
  have hlate : ¬(runTo (roundEndTime s) s).ac.tracker.unclaimed + 1 < 8 := by omega
  exact if_neg hlate

/-- What the end of a round leaves, whichever round it is. -/
theorem endRound_keeps {s : State} (hsensing : s.li.sensing ≠ .off) :
    (endRound s).li.time = max s.li.time (roundEndTime s) ∧ OrderKept s (endRound s) ∧ (endRound s).fu = s.fu ∧
      MessagesKept s (endRound s) := by
  have htime := runTo_time (roundEndTime s) hsensing
  have horder := runTo_orderKept (roundEndTime s) s
  by_cases h : s.ac.tracker.unclaimed < 7
  · rw [endRound_of_early h]
    exact ⟨by simpa using htime, horder.trans (by simp [orderKept_iff, nextRound]), by simp, by simp [MessagesKept, HostSideKept]⟩
  · rw [endRound_of_eighth (by omega)]
    let u := onTracker (fun t => { t with phase := .rest, unclaimed := 8 }) (runTo (roundEndTime s) s)
    obtain ⟨hsame, -, htime', -⟩ := wakeIfNeeded_spec u
    exact ⟨by rw [htime']; simpa [u] using htime, (horder.trans (by simp [orderKept_iff, u])).trans hsame, by simp,
      by simp [MessagesKept, HostSideKept]⟩

/-! ### Rest (R51) -/

/-- What stands when a station that listens has concluded rest, before it tests its need to send. -/
def atRest (s : State) : State :=
  setStation .resync (onTracker (fun t => { t with phase := .rest, unclaimed := 8 })
    (passTime (restDetectInterval s - s.ac.tracker.restDetect) s))

theorem exec_restDetectExpiry_of_quiet {s : State} (hstation : s.ac.station = .listening)
    (hphase : s.ac.tracker.phase = .unaligned) (hseen : s.ac.tracker.activitySeen = false) (hsensing : s.li.sensing = .quiet) :
    exec .restDetectExpiry s = .next (wakeIfNeeded (atRest s)) := by
  have hexec : exec .restDetectExpiry s = execRestDetectExpiry s := rfl
  simp [hexec, execRestDetectExpiry, hstation, hphase, hseen, hsensing, concludeRest, atRest]

/-- Quiet bit times of a station that has seen no activity count towards the rest-detect interval (R51). -/
theorem passTime_restDetect (n : Nat) {s : State} (hphase : s.ac.tracker.phase = .unaligned)
    (hseen : s.ac.tracker.activitySeen = false) (hsensing : s.li.sensing = .quiet) :
    (passTime n s).ac.tracker.restDetect = s.ac.tracker.restDetect + n := by
  rw [passTime_of_quiet hsensing]
  simp [passQuiet, hphase, hseen]

/-- What stands when rest has been concluded (R51). -/
theorem atRest_eq {s : State} (hphase : s.ac.tracker.phase = .unaligned) (hseen : s.ac.tracker.activitySeen = false)
    (hsensing : s.li.sensing = .quiet) (hearly : s.ac.tracker.restDetect ≤ restDetectInterval s) :
    (atRest s).li.time = s.li.time + (restDetectInterval s - s.ac.tracker.restDetect) ∧
      (atRest s).ac.tracker.restDetect = restDetectInterval s ∧ (atRest s).ac.tracker.phase = .rest ∧
      (atRest s).ac.tracker.unclaimed = 8 ∧ (atRest s).ac.tracker.access = s.ac.tracker.access ∧
      (atRest s).li.tx = s.li.tx ∧ (atRest s).fu = s.fu ∧ MessagesKept s (atRest s) ∧
      (atRest s).ac = { s.ac with station := .resync, tracker := (atRest s).ac.tracker } := by
  have htime := passTime_time (restDetectInterval s - s.ac.tracker.restDetect) (s := s) (by simp [hsensing])
  have hcount := passTime_restDetect (restDetectInterval s - s.ac.tracker.restDetect) hphase hseen hsensing
  have horder : OrderKept s (passTime (restDetectInterval s - s.ac.tracker.restDetect) s) := (passTime_watches _ s).order
  rw [OrderKept] at horder
  refine ⟨by simpa [atRest] using htime, ?_, by simp [atRest], by simp [atRest], by simp [atRest], by simp [atRest],
    by simp [atRest], by simp [atRest, MessagesKept, HostSideKept], ?_⟩
  · have hfull : s.ac.tracker.restDetect + (restDetectInterval s - s.ac.tracker.restDetect) = restDetectInterval s := by omega
    simpa [atRest, hfull] using hcount
  · simp only [atRest, setStation, onTracker, onAc]
    rw [horder]

/-- Settles O44: the end of a round before the eighth and at it, and the conclusion of rest. -/
theorem quietRoundsAndRestWake : Obligations.QuietRoundsAndRestWake := by
  refine ⟨needToSend_iff, fun s hphase hsensing hclaim hx hlate => ?roundEnd,
    fun s hstation hphase hseen hsensing hx hclaim hearly => ?rest⟩
  case roundEnd =>
    have hdue : roundEndTime s = slotStartTime s (2 * s.ac.setup.roster) := rfl
    have hsenses : s.li.sensing ≠ .off := by simp [hsensing]
    obtain ⟨htime, horder, hfu, hmessages⟩ := endRound_keeps hsenses
    rw [Nat.max_eq_right (hdue ▸ hlate), hdue] at htime
    refine ⟨_, exec_roundEnd_of_quiet hphase hsensing hclaim, htime, horder, hfu, hmessages, fun h => ?_, fun h => ?_⟩
    · rw [endRound_of_early h]
      simp [nextRound, hdue, runTo, hx]
    · obtain ⟨-, htx, hst, hsetup, hrestart, -, haccess, -⟩ := runTo_keeps (roundEndTime s) s
      let u := onTracker (fun t => { t with phase := .rest, unclaimed := 8 }) (runTo (roundEndTime s) s)
      have hend : endRound s = wakeIfNeeded u := endRound_of_eighth (by omega)
      have hneed : needToSend u = needToSend s := needToSend_congr (by simp [u, hst]) (by simp [u, hrestart]) (by simp [u]) (by simp [u])
      have hopen : claimOpen u = false := (claimOpen_congr (by simp [u, haccess])).trans hclaim
      rw [hend]
      refine ⟨by rw [wakeIfNeeded_tracker]; simp [u], by rw [wakeIfNeeded_tracker]; simp [u], fun hno => ?_, fun hsend => ?_⟩
      · rw [wakeIfNeeded_of_no_need (.inr (hneed.trans hno))]
        exact ⟨by simpa [u, htx] using hx, by simpa [u] using haccess⟩
      · obtain ⟨htx', haccess'⟩ := wakeIfNeeded_woken (s := u) (by simp [u]) (hneed.trans hsend) hopen (by simpa [u, htx] using hx)
        exact ⟨htx', by simpa [u, haccess] using haccess'⟩
  case rest =>
    obtain ⟨htime, hcount, hrest, hunclaimed, haccess, htx, hfu, hmessages, hac⟩ := atRest_eq hphase hseen hsensing hearly
    obtain ⟨hsame, -, htime', -⟩ := wakeIfNeeded_spec (atRest s)
    obtain ⟨hst, hsetup, horder, hrestart, hcollisions⟩ := (orderKept_iff _ _).mp hsame
    have hopen : claimOpen (atRest s) = false := (claimOpen_congr (by rw [haccess])).trans hclaim
    have hneed : needToSend (atRest s) = true := (needToSend_iff _).mpr (.inl (by rw [hac]))
    obtain ⟨htx', haccess'⟩ := wakeIfNeeded_woken hrest hneed hopen (by rw [htx, hx])
    rw [hac] at hst hsetup horder hrestart hcollisions
    refine ⟨_, exec_restDetectExpiry_of_quiet hstation hphase hseen hsensing, hst, by rw [wakeIfNeeded_tracker]; exact hrest,
      by rw [wakeIfNeeded_tracker]; exact hunclaimed, by rw [wakeIfNeeded_tracker]; exact hcount, by rw [htime']; exact htime,
      htx', by rw [haccess'], horder, hrestart, hsetup, hcollisions, by simpa using hfu, ?_⟩
    simp [MessagesKept, HostSideKept, atRest]

end Sys2Proof.Machine
end

section
/-! The own slot and the frame (chapters 03 and 05). -/

namespace Sys2Proof.Machine

/-! ### The own slot (R37, R39) -/

theorem ownSlot_of_resync {s : State} (h : s.ac.station = .resync) : ownSlot s = some s.ac.setup.address := by
  rw [ownSlot, h]
  rfl

theorem ownSlot_of_online {s : State} (h : s.ac.station = .online) :
    ownSlot s = (s.ac.order.idxOf? s.ac.setup.address).map (s.ac.setup.roster + ·) := by
  rw [ownSlot, h]
  rfl

theorem ownSlot_of_other {s : State} (hresync : s.ac.station ≠ .resync) (honline : s.ac.station ≠ .online) :
    ownSlot s = none := by
  rw [ownSlot]
  split <;> simp_all

/-- The first place of an address in a list. -/
theorem idxOf?_of_split {a : Nat} {front rest : List Nat} (h : a ∉ front) :
    (front ++ a :: rest).idxOf? a = some front.length := by
  induction front with
  | nil => simp [List.idxOf?_cons]
  | cons b front ih =>
    obtain ⟨hb, hfront⟩ : a ≠ b ∧ a ∉ front := by simpa using h
    simp [List.idxOf?_cons, ih hfront, Ne.symm hb]

/-- What stands when the own slot starts, before the station claims it. -/
def atSlot (k : Nat) (s : State) : State :=
  onTracker (fun t => { t with slotTaken := true }) (runTo (slotStartTime s k) s)

theorem exec_slotStart_of_due {k : Nat} {s : State} (hslot : ownSlot s = some k) (hphase : s.ac.tracker.phase = .round)
    (hsensing : s.li.sensing = .quiet) (htaken : s.ac.tracker.slotTaken = false) (hclaim : claimOpen s = false)
    (hearly : s.li.time ≤ slotStartTime s k) : exec .slotStart s = .next (slotStart k s) := by
  have hexec : exec .slotStart s = execSlotStart s := rfl
  simp [hexec, execSlotStart, hslot, hphase, hsensing, htaken, hclaim, hearly]

/-- The start of the slot leaves everything but the time base, the guard count and the mark that the slot has been taken. -/
theorem atSlot_keeps {k : Nat} {s : State} (hsensing : s.li.sensing = .quiet) (hearly : s.li.time ≤ slotStartTime s k) :
    (atSlot k s).li = { s.li with time := slotStartTime s k } ∧ OrderKept s (atSlot k s) ∧
      (atSlot k s).ac.tracker.phase = s.ac.tracker.phase ∧ (atSlot k s).ac.tracker.access = s.ac.tracker.access ∧
      (atSlot k s).fu = s.fu ∧ MessagesKept s (atSlot k s) := by
  have horder : OrderKept s (atSlot k s) :=
    (runTo_orderKept (slotStartTime s k) s).trans (by simp [orderKept_iff, atSlot])
  obtain ⟨-, -, -, -, -, hphase, haccess, -⟩ := runTo_keeps (slotStartTime s k) s
  have hdue : s.li.time + (slotStartTime s k - s.li.time) = slotStartTime s k := by omega
  refine ⟨?_, horder, by simpa [atSlot] using hphase, by simpa [atSlot] using haccess, by simp [atSlot],
    by simp [atSlot, MessagesKept, HostSideKept]⟩
  simp [atSlot, runTo, passTime_of_quiet hsensing, passQuiet, hdue]

/-- What the station sends in its slot hangs on its station state, on restart pending, on the queue and the Peer Table. -/
theorem slotContent_congr {s t : State} (hkept : OrderKept s t) (hte : t.te = s.te) (hpeers : t.peers = s.peers) :
    slotContent t = slotContent s := by
  obtain ⟨hstation, -, -, hrestart, -⟩ := (orderKept_iff s t).mp hkept
  rw [slotContent, slotContent, hstation, hrestart, selectEntry_congr hte hpeers]

theorem slotContent_of_reset {s : State} (h : s.ac.station = .resync ∨ (s.ac.station = .online ∧ s.ac.restartPending = true)) :
    slotContent s = some .orderReset := by
  obtain h | ⟨h, hrestart⟩ := h
  · rw [slotContent, h]
  · rw [slotContent, h]
    exact if_pos hrestart

theorem slotContent_of_online {s : State} (h : s.ac.station = .online) (hrestart : s.ac.restartPending = false) :
    slotContent s = (selectEntry s).map fun e => .entry e.tag := by
  rw [slotContent, h]
  exact if_neg (by simp [hrestart])

/-- The state in which a claim mark goes out: the claim is MARKED and its entry launched (R39, R109). -/
def marking (k : Nat) (content : ClaimContent) (s : State) : State :=
  startTransmission .mark markSymbols
    (setClaim (some { slot := some k, content := content, progress := .marked, markedAt := s.li.time }) (launchEntry content s))

theorem claimSlot_of_released {k : Nat} {content : ClaimContent} {s : State} (hx : s.li.tx = none) :
    claimSlot k content s = marking k content s := by
  have hfree : driving (setClaim (some { slot := some k, content := content, progress := .marked, markedAt := s.li.time })
      (launchEntry content s)) = false := by
    simp [driving, hx]
  simp only [claimSlot, launchEntry_frame, marking]
  exact if_neg (by simpa using hfree)

/-- What a claim mark sets in the LI and the AC. -/
theorem marking_keeps (k : Nat) (content : ClaimContent) (s : State) :
    (marking k content s).li = { s.li with
        tx := some { owner := .mark, symbols := [true, false, true, false], start := s.li.time }
        stuckTimer := 0
        burst := s.li.burst.map (Burst.drivenFrom s.li.time) } ∧
      (marking k content s).ac = { s.ac with tracker := { s.ac.tracker with access := { s.ac.tracker.access with
        claim := some { slot := some k, content := content, progress := .marked, markedAt := s.li.time } } } } ∧
      (marking k content s).te = (launchEntry content s).te ∧ (marking k content s).fu = s.fu ∧
      (marking k content s).peers = s.peers ∧ (marking k content s).re = s.re ∧
      (marking k content s).freeBlocks = s.freeBlocks ∧ (marking k content s).notices = s.notices ∧
      (marking k content s).choice = s.choice ∧ HostSideKept s (marking k content s) := by
  simp [marking, setClaim, markSymbols, HostSideKept]

/-- A slot in which the station has something to send. -/
theorem slotStart_of_content {k : Nat} {content : ClaimContent} {s : State} (hcontent : slotContent (atSlot k s) = some content)
    (hx : (atSlot k s).li.tx = none) : slotStart k s = marking k content (atSlot k s) := by
  have hstart : slotStart k s = match slotContent (atSlot k s) with
      | some content => claimSlot k content (atSlot k s)
      | none => atSlot k s := rfl
  rw [hstart, hcontent]
  exact claimSlot_of_released hx

theorem slotStart_of_nothing {k : Nat} {s : State} (hcontent : slotContent (atSlot k s) = none) :
    slotStart k s = atSlot k s := by
  have hstart : slotStart k s = match slotContent (atSlot k s) with
      | some content => claimSlot k content (atSlot k s)
      | none => atSlot k s := rfl
  rw [hstart, hcontent]

/-- The launch of an entry (R93, R109). -/
theorem launchEntry_of_entry {tag : Tag} {s : State} {e : TxEntry} (h : findEntry s tag = some e) :
    (launchEntry (.entry tag) s).te = { s.te with queue := s.te.queue.map fun x => if x.tag = tag then { x with
        state := .inFlight
        sequence := if x.frameKind = .dataDirect ∧ x.sequence = none then some (nextSequence s e.destination) else x.sequence }
      else x } := by
  simp [launchEntry, h, TxEntry.launch]

theorem nextSequence_congr {s t : State} (h : t.peers = s.peers) (d : Destination) :
    nextSequence t d = nextSequence s d := by
  cases d with
  | peer a => exact congrArg PeerEntry.nextSend (peerEntry_congr h a)
  | all => rfl

/-- Settles O41: the start of the slot, and then what the station has to send in it. -/
theorem slotStartClaims : Obligations.SlotStartClaims := by
  refine ⟨fun s => ⟨ownSlot_of_resync, fun h front rest hsplit hfront => ?_, fun h habsent => ?_, ownSlot_of_other,
      fun k start hstart => ?_⟩,
    fun k s hslot hphase hsensing htaken hclaim hx hearly hreset => ?reset,
    fun k s hslot hphase hsensing htaken hclaim hx hearly honline hrestart => ⟨fun e he hfind => ?entry, fun hnone => ?nothing⟩⟩
  · rw [ownSlot_of_online h, hsplit, idxOf?_of_split hfront, Option.map_some]
  · rw [ownSlot_of_online h, List.idxOf?_eq_none_iff.mpr habsent, Option.map_none]
  · rw [slotStartTime, hstart, Option.getD_some]
  all_goals
    obtain ⟨hli, horder, hphase', haccess, hfu, hmessages⟩ := atSlot_keeps hsensing hearly
    have hkept := hmessages
    obtain ⟨hte, hre, hfree, hpeers, hnotices, hchoice, hhp, hheld, hpending⟩ := hmessages
    have hcontent := slotContent_congr horder hte hpeers
    have hxslot : (atSlot k s).li.tx = none := by rw [hli, hx]
    refine ⟨slotStart k s, exec_slotStart_of_due hslot hphase hsensing htaken hclaim hearly, ?_⟩
  case reset =>
    rw [slotStart_of_content (hcontent.trans (slotContent_of_reset hreset)) hxslot]
    obtain ⟨hli', hac', hte', hfu', hpeers', hre', hfree', hnotices', hchoice', hhp', hheld', hpending'⟩ :=
      marking_keeps k .orderReset (atSlot k s)
    have hsame : OrderKept s (marking k .orderReset (atSlot k s)) := horder.trans (by rw [OrderKept, hac'])
    refine ⟨by rw [hli', hli], by rw [hac', hli], by rw [hac', ← hphase, ← hphase'], hsame, hfu'.trans hfu, hte'.trans hte,
      hre'.trans hre, hfree'.trans hfree, hpeers'.trans hpeers, hnotices'.trans hnotices, hchoice'.trans hchoice,
      hhp'.trans hhp, hheld'.trans hheld, hpending'.trans hpending⟩
  case entry =>
    have hsend : slotContent (atSlot k s) = some (.entry e.tag) := by
      rw [hcontent, slotContent_of_online honline hrestart, he]
      rfl
    rw [slotStart_of_content hsend hxslot]
    obtain ⟨hli', hac', hte', hfu', hpeers', hre', hfree', hnotices', hchoice', hhp', hheld', hpending'⟩ :=
      marking_keeps k (.entry e.tag) (atSlot k s)
    have hfound : findEntry (atSlot k s) e.tag = some e := by rwa [findEntry, hte]
    refine ⟨by rw [hli', hli], by rw [hac', hli], ?_, horder.trans (by rw [OrderKept, hac']), hfu'.trans hfu,
      hpeers'.trans hpeers, hre'.trans hre, hfree'.trans hfree, hnotices'.trans hnotices, hhp'.trans hhp, hheld'.trans hheld,
      hpending'.trans hpending⟩
    rw [hte', launchEntry_of_entry hfound, hte, nextSequence_congr hpeers]
    rfl
  case nothing =>
    have hidle : slotContent (atSlot k s) = none := by
      rw [hcontent, slotContent_of_online honline hrestart, hnone]
      rfl
    rw [slotStart_of_nothing hidle]
    exact ⟨hxslot, haccess, hphase'.trans hphase, horder, hfu, hkept⟩

end Sys2Proof.Machine
end

section
/-! The frame of a held claim (chapter 05). -/

namespace Sys2Proof.Machine

/-- What the statement of the frame request asks of `r`, by the content of the claim (R22, R42). -/
def Requested (c : OwnClaim) (s : State) (r : FrameRequest) : Prop :=
  (c.content = .orderReset → r = {
    kind := .orderReset, destination := 63, claimSlot := c.slot.getD 0, sequence := 0, length := 2
    payload := [toByte s.ac.setup.roster, if s.ac.restartPending then 1 else 0] }) ∧
  (∀ tag, c.content = .entry tag → ∃ e, findEntry s tag = some e ∧
    r = { kind := e.frameKind, destination := e.destination.address, claimSlot := c.slot.getD 0,
          sequence := if e.frameKind = .dataDirect then e.sequence.getD 0 else 0, length := e.length,
          payload := e.payload }) ∧
  c.content ≠ .wake

theorem frameRequest_of_requested {c : OwnClaim} {s : State} {r : FrameRequest} (h : Requested c s r) :
    frameRequest c s = some r := by
  obtain ⟨hreset, hentry, hwake⟩ := h
  cases hcontent : c.content with
  | orderReset =>
    rw [hreset hcontent]
    simp only [frameRequest, hcontent]
    rfl
  | entry tag =>
    obtain ⟨e, he, hr⟩ := hentry tag hcontent
    simp [frameRequest, hcontent, he, hr]
  | wake => exact absurd hcontent hwake

/-- The request is built from the setup record, from restart pending and from the queue. -/
theorem frameRequest_congr {s t : State} (hkept : OrderKept s t) (hte : t.te = s.te) (c : OwnClaim) :
    frameRequest c t = frameRequest c s := by
  obtain ⟨-, hsetup, -, hrestart, -⟩ := (orderKept_iff s t).mp hkept
  simp only [frameRequest, orderResetPayload, roster, findEntry, hsetup, hrestart, hte]

theorem exec_frameStart_of_held {c : OwnClaim} {s : State} (hc : s.ac.tracker.access.claim = some c)
    (hheld : c.progress = .held) : exec .frameStart s = .next (frameStart c s) := by
  have hexec : exec .frameStart s = execFrameStart s := rfl
  simp [hexec, execFrameStart, hc, hheld]

theorem frameStart_of_request {c : OwnClaim} {s : State} {r : FrameRequest} (h : frameRequest c s = some r) :
    frameStart c s = sendFrame r (runTo (c.markedAt + s.ac.setup.slot) s) := by
  have hsame : frameRequest c (runTo (c.markedAt + s.ac.setup.slot) s) = some r :=
    (frameRequest_congr (runTo_orderKept _ s) (by simp) c).trans h
  simp only [frameStart, hsame]

/-- The claim of a frame request that is refused. -/
theorem setProgress_claim {s : State} {c : OwnClaim} (hc : s.ac.tracker.access.claim = some c) (p : Progress) :
    (setProgress p s).ac.tracker.access.claim = some { c with progress := p } := by
  simp [setProgress, hc]

/-- A request that the framer and the driver take (R10, R22). -/
theorem sendFrame_of_free {r : FrameRequest} {s : State} (hframer : s.fu.framer = .idle) (hx : s.li.tx = none) :
    sendFrame r s = setFramer (.frame r) (startTransmission .frame (frameSymbols s.ac.setup.address r) (setProgress .sent s)) := by
  simp [sendFrame, driving, hframer, hx, setFramer, ownAddress]

/-- A request that meets a busy framer or driver is a collision (R42, R59). -/
theorem sendFrame_of_busy {r : FrameRequest} {s : State} (h : s.fu.framer ≠ .idle ∨ s.li.tx ≠ none) :
    sendFrame r s = frameMismatch (setProgress .sent s) := by
  have hbusy : ¬((setProgress .sent s).fu.framer == .idle && !driving (setProgress .sent s)) = true := by
    obtain h | h := h
    · simp [h]
    · simp [driving, Option.isSome_iff_ne_none.mpr h]
  exact if_neg hbusy

/-- The length of a frame in symbols (R9): 8 of preamble, 16 of sync, 7 header bytes, the body with its check, 2 at the end. -/
theorem frameSymbols_length (source : Nat) {r : FrameRequest} (h : r.payload.length = r.length) :
    (frameSymbols source r).length = if r.length = 0 then 82 else 82 + 8 * r.length + 16 := by
  have hbytes (l : List Byte) : (l.flatMap bitsLowFirst).length = 8 * l.length := by
    simp [List.length_flatMap, Nat.mul_comm]
  by_cases hempty : r.length = 0
  · simp [frameSymbols, envelope, frameHeaderBytes, frameBodyBytes, withHeaderCheck, hempty, preambleSymbols, syncSymbols,
      endSymbols]
  · simp [frameSymbols, envelope, hbytes, frameHeaderBytes, frameBodyBytes, withHeaderCheck, hempty, h, preambleSymbols,
      syncSymbols, endSymbols]
    omega

/-- Settles O43: the slot boundary, and then the request that is taken or refused. -/
theorem frameStartSendsFrame : Obligations.FrameStartSendsFrame := by
  refine ⟨fun s c r hc hheld hsensing hreset hentry hwake => ?_, fun source r h => frameSymbols_length source h⟩
  have hrequest : frameRequest c s = some r := frameRequest_of_requested ⟨hreset, hentry, hwake⟩
  have horder : OrderKept s (runTo (c.markedAt + s.ac.setup.slot) s) := runTo_orderKept _ s
  obtain ⟨hstation, hsetup, hlist, hrestart, hcollisions⟩ := (orderKept_iff _ _).mp horder
  obtain ⟨-, htx, -, -, -, -, haccess, -⟩ := runTo_keeps (c.markedAt + s.ac.setup.slot) s
  have htime := runTo_time (c.markedAt + s.ac.setup.slot) hsensing
  have hfu : (runTo (c.markedAt + s.ac.setup.slot) s).fu = s.fu := by simp
  have hburst (b : Burst) : s.li.burst = some b → ∃ b', (runTo (c.markedAt + s.ac.setup.slot) s).li.burst = some b' ∧
      b'.start = b.start ∧ b'.isPartial = b.isPartial ∧ b'.isOwn = b.isOwn := passTime_burst _
  obtain ⟨hte, hre, hfree, hpeers, hnotices, hchoice, hhp, hreset, hpending⟩ := runTo_messages (c.markedAt + s.ac.setup.slot) s
  rw [exec_frameStart_of_held hc hheld, frameStart_of_request hrequest]
  generalize runTo (c.markedAt + s.ac.setup.slot) s = u at *
  have hclaim : u.ac.tracker.access.claim = some c := (congrArg AccessRecord.claim haccess).trans hc
  refine ⟨fun hframer hx => ?taken, fun hbusy hle => ?refused⟩
  case taken =>
    rw [sendFrame_of_free (by rw [hfu, hframer]) (by rw [htx, hx])]
    refine ⟨_, rfl, by simpa using htime, by simp [hsetup], ?_, ?_, horder.trans (by simp [orderKept_iff]), ?_, fun b hb => ?_⟩
    · simp [setFramer, hfu]
    · simpa using setProgress_claim hclaim .sent
    · exact ⟨by simpa using hte, by simpa using hre, by simpa using hfree, by simpa using hpeers, by simpa using hnotices,
        by simpa using hchoice, by simpa using hhp, by simpa using hreset, by simpa using hpending⟩
    · obtain ⟨b₁, hb₁, hstart, hpartial, hown⟩ := hburst b hb
      obtain ⟨b', hb', hstart', hpartial', hown'⟩ := startTransmission_burst .frame (frameSymbols u.ac.setup.address r)
        (s := setProgress .sent u) (b := b₁) (by simpa using hb₁)
      refine ⟨b', by simpa using hb', hstart'.trans hstart, hpartial'.trans hpartial, ?_⟩
      rw [hown', hown, hstart, hpartial]
      simp
  case refused =>
    rw [sendFrame_of_busy (by rwa [hfu, htx])]
    have hsent := setProgress_claim hclaim .sent
    have hle' : (setProgress .sent u).ac.collisions ≤ 3 := by simpa [hcollisions] using hle
    have hcollided : Collided c s (frameMismatch (setProgress .sent u)) :=
      (frameMismatch_collided hsent hle').of_eq (by simpa using hte) (by simpa using hfree) (by simpa using hnotices)
        (by simpa using hhp) (by simpa using hsetup) (by simpa using hcollisions) (by simpa using hstation)
    have hside : HostSideKept s (frameMismatch (setProgress .sent u)) :=
      ⟨by simpa using hhp, by simpa using hreset, by simpa using hpending⟩
    refine ⟨_, rfl, hcollided, ?_⟩
    obtain ⟨-, v, hv, -, -, hvorder, hvsetup, hvrestart, hvre⟩ | ⟨-, hli', hfu', hre', ⟨n, hac'⟩, -⟩ := frameMismatch_cases hsent hle'
    · obtain ⟨-, -, hhac, hhre, -⟩ := halt_writes v
      rw [hv] at hside ⊢
      refine ⟨fun h => absurd (by simp) h, ?_, ?_, ?_, ?_, ?_, hside⟩
      · rw [hhac]
        exact hvorder.trans (by simpa using hlist)
      · rw [hhac]
        exact hvsetup.trans (by simpa using hsetup)
      · rw [hhac]
        exact hvrestart.trans (by simpa using hrestart)
      all_goals rw [hhre, hvre]; simp [hre]
    · refine ⟨fun _ => ⟨by rw [hfu']; simpa using hfu, by rw [hli']; simpa using htx⟩, ?_, ?_, ?_, ?_, ?_, hside⟩
      · rw [hac']
        simpa using hlist
      · rw [hac']
        simpa using hsetup
      · rw [hac']
        simpa using hrestart
      all_goals rw [hre']; simp [hre]

end Sys2Proof.Machine
end

section
/-! The guard's completion (chapter 03). -/

namespace Sys2Proof.Machine

/-! ### What every access end leaves (R56 to R71) -/

theorem AccessTaken.leaves {s t : State} (h : AccessTaken s t) : t.li.time = s.li.time ∧ t.re.ring = s.re.ring ∧
    t.re.missed = s.re.missed ∧ (s.fu.window = .closed → t.fu.window = .closed) := by
  cases h <;> simp [FrameUnit.initial]

/-- A station that goes on sensing keeps its round tracker until the round starts; one that stops takes the first values. -/
theorem AccessTaken.tracker {s t : State} (h : AccessTaken s t) :
    (t.ac.tracker = s.ac.tracker ∧ (silentStation t.ac.station = true → t.ac.station = s.ac.station)) ∨
      (t.ac.tracker = RoundTracker.initial ∧ t.li.sensing = .off) := by
  cases h
  case halted => exact .inr (by simp)
  case left => exact .inr (by simp)
  all_goals exact .inl (by simp [silentStation])

/-! ### The state that the AC takes the access in (R36, R45) -/

/-- The guard has completed and the TE has taken the outcome of the own claim. -/
def atGuard (n : Nat) (s : State) : State := takeOutcome (passTime (16 - n) s)

theorem atGuard_keeps (n : Nat) {s : State} (hsensing : s.li.sensing = .quiet) :
    (atGuard n s).li = { s.li with time := s.li.time + (16 - n) } ∧ OrderKept s (atGuard n s) ∧
      (atGuard n s).ac.tracker.access = s.ac.tracker.access ∧
      (atGuard n s).ac.tracker.unclaimed = s.ac.tracker.unclaimed ∧ (atGuard n s).re = s.re ∧
      (atGuard n s).fu.window = .closed ∧ (atGuard n s).hp = s.hp := by
  have horder : OrderKept s (atGuard n s) := (passTime_watches (16 - n) s).order.trans (.of_eq (by simp [atGuard]))
  refine ⟨?_, horder, by simp [atGuard], by simp [atGuard], by simp [atGuard], takeOutcome_window _, by simp [atGuard]⟩
  simp [atGuard, passTime_of_quiet hsensing, passQuiet]

/-- What the completion of the guard leaves is what the AC leaves of the access, but for the round tracker. -/
theorem guardComplete_ends {n : Nat} {s : State} (h : GuardDue n s) : ∃ t, exec .guardComplete s = .next t ∧
    t = accessEnd (s.li.time + (16 - n)) (passTime (16 - n) s) ∧
    t.li = (accessEndAtAc (atGuard n s)).li ∧ t.fu = (accessEndAtAc (atGuard n s)).fu ∧
    t.te = (accessEndAtAc (atGuard n s)).te ∧ t.re = (accessEndAtAc (atGuard n s)).re ∧
    t.peers = (accessEndAtAc (atGuard n s)).peers ∧ t.freeBlocks = (accessEndAtAc (atGuard n s)).freeBlocks ∧
    t.notices = (accessEndAtAc (atGuard n s)).notices ∧ t.ac.station = (accessEndAtAc (atGuard n s)).ac.station ∧
    t.ac.setup = (accessEndAtAc (atGuard n s)).ac.setup ∧ t.ac.order = (accessEndAtAc (atGuard n s)).ac.order ∧
    t.ac.restartPending = (accessEndAtAc (atGuard n s)).ac.restartPending ∧
    t.ac.collisions = (accessEndAtAc (atGuard n s)).ac.collisions :=
  ⟨_, exec_guardComplete_of_due h, rfl, accessEnd_keeps _ _⟩

/-- A station that still senses starts ROUND(0). -/
theorem accessEnd_of_sensing {m : Nat} {s : State} (h : silentStation (accessEndAtAc (takeOutcome s)).ac.station = false) :
    accessEnd m s = startRound m (accessEndAtAc (takeOutcome s)) := by
  simp only [accessEnd]
  split <;> simp_all [silentStation]

/-- Settles O47: what the access leaves, and then the start of a round or the end of sensing. -/
theorem guardStartsRound : Obligations.GuardStartsRound := by
  intro n s h
  have hside : HostSideKept s (accessEnd (s.li.time + (16 - n)) (passTime (16 - n) s)) := by simp [HostSideKept]
  have hchoice : (accessEnd (s.li.time + (16 - n)) (passTime (16 - n) s)).choice = s.choice := by simp
  obtain ⟨-, -, hsensing, -, -, -⟩ := id h
  obtain ⟨hli, hkept, -, hunclaimed, hre, hwindow, -⟩ := atGuard_keeps n hsensing
  obtain ⟨hstation, hsetup, -⟩ := (orderKept_iff _ _).mp hkept
  have htaken := accessEndAtAc_taken (atGuard n s)
  obtain ⟨htime, hring, hmissed, hclosed⟩ := htaken.leaves
  obtain ⟨t, hexec, ht, htli, htfu, -, htre, -, -, -, htstation, htsetup, -⟩ := guardComplete_ends h
  rw [← ht] at hside hchoice
  have htend : t.li.time = s.li.time + (16 - n) := by rw [htli, htime, hli]
  refine ⟨t, hexec, hside, htend, by rw [htfu, hclosed hwindow], by rw [htsetup, htaken.setup, hsetup],
    by rw [htre, hring, hre], by rw [htre, hmissed, hre], hchoice, fun hsenses => ?round, fun hsilent hoff hhalted => ?silent⟩
  case round =>
    have hawake : silentStation (accessEndAtAc (atGuard n s)).ac.station = false := by
      rw [← htstation]
      obtain h | h | h | h := hsenses <;> rw [h] <;> rfl
    have hround : t = startRound (s.li.time + (16 - n)) (accessEndAtAc (atGuard n s)) := ht.trans (accessEnd_of_sensing hawake)
    have hcount : (accessEndAtAc (atGuard n s)).ac.tracker.unclaimed = s.ac.tracker.unclaimed := by
      obtain ⟨hsame, -⟩ | ⟨-, hsleeps⟩ := htaken.tracker
      · rw [hsame, hunclaimed]
      · obtain hstays | hfalls := htaken.awake
        · exact absurd hsleeps (hstays.1 (by simp [hli, hsensing]))
        · rw [hfalls.1.station] at hawake
          simp at hawake
    rw [htend, hround]
    exact ⟨rfl, rfl, rfl, rfl, rfl, hcount⟩
  case silent =>
    have hasleep : silentStation (accessEndAtAc (atGuard n s)).ac.station = true := by
      rw [← htstation]
      obtain h | h := hsilent <;> rw [h] <;> rfl
    have hend : t = accessEndAtAc (atGuard n s) := ht.trans (accessEnd_of_silent hasleep)
    obtain ⟨-, hsame⟩ | ⟨hinitial, hsleeps⟩ := htaken.tracker
    · have hold := htstation.trans ((hsame hasleep).trans hstation)
      rw [hold] at hsilent
      exact absurd hsilent (by simp [hoff, hhalted])
    · rw [hend]
      exact ⟨hinitial, hsleeps⟩

end Sys2Proof.Machine
end

section
/-! The access end of an ONLINE station (chapter 04). -/

namespace Sys2Proof.Machine

/-! ### What an access end takes in (R56) -/

theorem claimProgress_eq (s : State) : claimProgress s = s.ac.tracker.access.claim.map (·.progress) := rfl

theorem sourceIsOwn_iff {s : State} :
    sourceIsOwn s = true ↔ s.ac.tracker.access.report.source = some s.ac.setup.address := by
  simp [sourceIsOwn, ownAddress]

/-- Nothing of the own claim or of the own address decides the access end: the report does (R56). -/
structure ReportDecides (s : State) : Prop where
  noMismatch : claimProgress s ≠ some .mismatched
  foreign : sourceIsOwn s = false
  notPassed : claimProgress s ≠ some .passed

/-- Without a passed claim the TE takes no outcome. -/
theorem takeOutcome_of_not_passed {s : State} (h : claimProgress s ≠ some .passed) : takeOutcome s = setWindow .closed s := by
  refine takeOutcome_of_not_due ?_
  rw [outcomeDue]
  cases hc : s.ac.tracker.access.claim with
  | none => rfl
  | some c =>
    have hprogress : c.progress ≠ .passed := by simpa [claimProgress, hc] using h
    simp [hprogress]

theorem observedOwner_congr {s t : State} (horder : t.ac.order = s.ac.order) (hsetup : t.ac.setup = s.ac.setup)
    (haccess : t.ac.tracker.access = s.ac.tracker.access) : observedOwner t = observedOwner s := by
  have hroster : roster t = roster s := congrArg SetupRecord.roster hsetup
  rw [observedOwner, observedOwner, haccess, horder, hroster]

/-! ### The cases of R56 -/

theorem onlineEnd_of_mismatched {s : State} (h : claimProgress s = some .mismatched) : onlineEnd s = setStation .resync s :=
  if_pos (by simp [h])

theorem onlineEnd_of_own {s : State} (h : claimProgress s ≠ some .mismatched) (hown : sourceIsOwn s = true) :
    onlineEnd s = halt s := by
  simp [onlineEnd, h, hown]

theorem onlineEnd_of_passed {s : State} (h : claimProgress s = some .passed) (hown : sourceIsOwn s = false) :
    onlineEnd s = ownFrameEnd s := by
  simp [onlineEnd, h, hown]

theorem ownFrameEnd_of_entry {s : State} {tag : Tag} (h : claimContent s = some (.entry tag)) :
    ownFrameEnd s = rotateOrder s.ac.setup.address s := by
  rw [ownFrameEnd, h]
  rfl

theorem ownFrameEnd_of_orderReset {s : State} (h : claimContent s = some .orderReset) :
    ownFrameEnd s = resetOrder s.ac.setup.address s := by
  rw [ownFrameEnd, h]
  rfl

section Report
variable {s : State} {h : FrameHeader} {e : FrameEnd} {b : Option OrderResetBody}

/-- A good foreign ORDER-RESET (R65). -/
theorem onlineEnd_of_goodReset {body : OrderResetBody} (hd : ReportDecides s)
    (hreport : s.ac.tracker.access.report = .header (.frame h) .good (some body)) (hkind : h.kind = .orderReset) :
    onlineEnd s = takeOrderReset h body id s := by
  simp [onlineEnd, hd.noMismatch, hd.foreign, hd.notPassed, hreport, hkind]

/-- A foreign ORDER-RESET that did not end good (R62). -/
theorem onlineEnd_of_badReset (hd : ReportDecides s) (hreport : s.ac.tracker.access.report = .header (.frame h) e b)
    (hkind : h.kind = .orderReset) (hbad : e ≠ .good) : onlineEnd s = diverged (some h.source) s := by
  cases e with
  | good => exact absurd rfl hbad
  | body | truncated | awaited => simp [onlineEnd, hd.noMismatch, hd.foreign, hd.notPassed, hreport, hkind]

/-- A foreign DATA or PROBE header (R61). -/
theorem onlineEnd_of_header (hd : ReportDecides s) (hreport : s.ac.tracker.access.report = .header (.frame h) e b)
    (hkind : h.kind ≠ .orderReset) : onlineEnd s = verifyHeader h s := by
  simp [onlineEnd, hd.noMismatch, hd.foreign, hd.notPassed, hreport, hkind]

/-- An answer whose frame was missed (R64). -/
theorem onlineEnd_of_answer {a : AnswerHeader} (hd : ReportDecides s)
    (hreport : s.ac.tracker.access.report = .header (.answer a) e b) : onlineEnd s = placeAnswer a s := by
  simp [onlineEnd, hd.noMismatch, hd.foreign, hd.notPassed, hreport]

/-- A header that could not be read (R63). -/
theorem onlineEnd_of_unread (hd : ReportDecides s)
    (hreport : s.ac.tracker.access.report = .headerInvalid ∨ s.ac.tracker.access.report = .truncated) :
    onlineEnd s = rotateByMark s := by
  obtain hreport | hreport := hreport <;> simp [onlineEnd, hd.noMismatch, hd.foreign, hd.notPassed, hreport]

theorem onlineEnd_of_absent (hd : ReportDecides s) (hreport : s.ac.tracker.access.report = .absent) : onlineEnd s = s := by
  simp [onlineEnd, hd.noMismatch, hd.foreign, hd.notPassed, hreport]

/-- A header that agrees with the observed mark slot and with the list (R61). -/
theorem verifyHeader_of_aligned
    (hslot : s.ac.tracker.access.observed = none ∨ s.ac.tracker.access.observed = some h.claimSlot)
    (howner : s.ac.order[h.claimSlot - s.ac.setup.roster]? = some h.source) : verifyHeader h s = rotateOrder h.source s := by
  obtain hslot | hslot := hslot <;> simp [verifyHeader, hslot, roster, howner]

/-- A header that does not (R61). -/
theorem verifyHeader_of_misaligned
    (hslot : ¬(s.ac.tracker.access.observed = none ∨ s.ac.tracker.access.observed = some h.claimSlot) ∨
      s.ac.order[h.claimSlot - s.ac.setup.roster]? ≠ some h.source) : verifyHeader h s = diverged (some h.source) s := by
  cases hobserved : s.ac.tracker.access.observed with
  | none =>
    have howner : s.ac.order[h.claimSlot - s.ac.setup.roster]? ≠ some h.source := by simpa [hobserved] using hslot
    simp [verifyHeader, hobserved, roster, howner]
  | some k =>
    by_cases hk : k = h.claimSlot
    · have howner : s.ac.order[h.claimSlot - s.ac.setup.roster]? ≠ some h.source := by simpa [hobserved, hk] using hslot
      simp [verifyHeader, roster, howner]
    · simp [verifyHeader, hobserved, hk]

end Report

theorem placeAnswer_of_owner {a : AnswerHeader} {s : State} (h : observedOwner s = some a.destination) :
    placeAnswer a s = rotateOrder a.destination s := by
  simp [placeAnswer, h]

theorem placeAnswer_of_other {a : AnswerHeader} {s : State} (h : observedOwner s ≠ some a.destination)
    (hsome : observedOwner s ≠ none) : placeAnswer a s = diverged (some a.destination) s := by
  obtain ⟨x, hx⟩ := Option.ne_none_iff_exists'.mp hsome
  have hne : x ≠ a.destination := by simpa [hx] using h
  simp [placeAnswer, hx, hne]

theorem placeAnswer_of_none {a : AnswerHeader} {s : State} (h : observedOwner s = none) :
    placeAnswer a s = diverged none s := by
  simp [placeAnswer, h]

theorem rotateByMark_of_owner {x : Nat} {s : State} (h : observedOwner s = some x) : rotateByMark s = rotateOrder x s := by
  simp [rotateByMark, h]

theorem rotateByMark_of_none {s : State} (h : observedOwner s = none) : rotateByMark s = diverged none s := by
  simp [rotateByMark, h]

/-! ### What the cases leave -/

theorem diverged_notices (subject : Option Nat) (s : State) : (diverged subject s).notices =
    addNotice (underRead s) { kind := .orderDiverged, subject := subject, detail := none } s.notices := by
  simp [diverged]

/-- What an applied ORDER-RESET leaves of the Peer Table and of the notices (R65). -/
theorem applyOrderReset_leaves (h : FrameHeader) (body : OrderResetBody) (s : State) :
    (applyOrderReset h body s).peers = (if body.restart = true
        then s.peers.setIfInBounds h.source { peerEntry s h.source with lastAccepted := none } else s.peers) ∧
      (applyOrderReset h body s).notices =
        addNotice (underRead s) { kind := .orderResetSeen, subject := some h.source, detail := none } s.notices := by
  have hreading (u : State) (hu : u.hp = s.hp) : underRead u = underRead s := underRead_congr hu
  by_cases hrestart : body.restart = true
  · simp [applyOrderReset, hrestart, updatePeer, peerEntry, hreading]
  · simp [applyOrderReset, hrestart, hreading]

theorem takeOrderReset_of_agreeing {h : FrameHeader} {body : OrderResetBody} {other : State → State} {s : State}
    (hroster : body.roster = s.ac.setup.roster) : takeOrderReset h body other s = applyOrderReset h body s :=
  if_pos hroster

theorem takeOrderReset_of_differing {h : FrameHeader} {body : OrderResetBody} {other : State → State} {s : State}
    (hroster : body.roster ≠ s.ac.setup.roster) :
    takeOrderReset h body other s = other (raise .rosterMismatch (some h.source) none s) :=
  if_neg hroster

/-- An access end that does not end LEAVING keeps restart pending and the count of collisions. -/
theorem AccessTaken.keeps {s t : State} (h : AccessTaken s t) : t.ac.collisions = s.ac.collisions ∧
    (s.ac.station ≠ .leaving → t.ac.restartPending = s.ac.restartPending) := by
  cases h
  case left h => exact ⟨by simp, fun hno => absurd h hno⟩
  all_goals simp

/-! ### The access end (R56, R58 to R67) -/

/-- Settles O48: the cases of R56 in their order, and then the report. -/
theorem onlineAccessEnd : Obligations.OnlineAccessEnd := by
  intro n s hdue hstation
  obtain ⟨-, -, hsensing, -, -, -⟩ := id hdue
  obtain ⟨-, hkept, haccess, -, -, -, hhp⟩ := atGuard_keeps n hsensing
  obtain ⟨hst, hsetup, horder, hrestart, hcollisions⟩ := (orderKept_iff _ _).mp hkept
  have hreading : underRead (atGuard n s) = underRead s := underRead_congr hhp
  have hbefore : (takeOutcome (passTime (16 - n) s)).notices = (atGuard n s).notices := rfl
  have hpeers (h : claimProgress s ≠ some .passed) : (atGuard n s).peers = s.peers := by
    have hsame : claimProgress (passTime (16 - n) s) ≠ some .passed := by simpa [claimProgress] using h
    rw [atGuard, takeOutcome_of_not_passed hsame]
    simp
  have honline : accessEndAtAc (atGuard n s) = onlineEnd (atGuard n s) := by rw [accessEndAtAc, hst, hstation]
  have htaken := accessEndAtAc_taken (atGuard n s)
  obtain ⟨t, hexec, -, -, -, -, -, htpeers, -, htnotices, htstation, -, htorder, htrestart, htcollisions⟩ := guardComplete_ends hdue
  obtain ⟨hcoll, hrest⟩ := htaken.keeps
  have hprogress : claimProgress (atGuard n s) = s.ac.tracker.access.claim.map (·.progress) := by
    rw [claimProgress, haccess]
  have hcontent : claimContent (atGuard n s) = s.ac.tracker.access.claim.map (·.content) := by
    rw [claimContent, haccess]
  have hown : sourceIsOwn (atGuard n s) = true ↔ s.ac.tracker.access.report.source = some s.ac.setup.address := by
    rw [sourceIsOwn_iff, haccess, hsetup]
  have howner : observedOwner s = match s.ac.tracker.access.observed with
      | some k => if s.ac.setup.roster ≤ k then s.ac.order[k - s.ac.setup.roster]? else none
      | none => none := by
    rw [observedOwner]
    rfl
  have howner' := observedOwner_congr horder hsetup haccess
  rw [honline] at htpeers htnotices htstation htorder
  refine ⟨t, hexec, ?_⟩
  rw [hbefore]
  intro a before progress own owner raised diverges rotates kept
  have hdiverges {subject : Option Nat} (h : onlineEnd (atGuard n s) = diverged subject (atGuard n s)) : diverges subject := by
    refine ⟨by rw [htstation, h]; simp, by rw [htorder, h]; simpa using horder, htnotices.trans ?_⟩
    rw [h, diverged_notices, hreading]
  have hrotates {x : Nat} (h : onlineEnd (atGuard n s) = rotateOrder x (atGuard n s)) : rotates x :=
    ⟨by rw [htstation, h]; simpa using hst.trans hstation, by rw [htorder, h]; simp [horder], by rw [htnotices, h]; simp [before]⟩
  refine ⟨⟨?_, by rw [htcollisions, hcoll, hcollisions]⟩, fun h => ?mismatched, fun h ho => ?own, fun h ho c hc => ?passed,
    fun hno hpassed ho => ?report⟩
  · rw [htrestart, hrest (by simp [hst, hstation]), hrestart]
  case mismatched =>
    rw [htstation, htorder, htnotices, onlineEnd_of_mismatched (hprogress.trans h)]
    exact ⟨by simp, by simpa using horder, by simp [before]⟩
  case own =>
    rw [htstation, htorder, onlineEnd_of_own (by rwa [hprogress]) (hown.mpr ho)]
    refine ⟨by simp, by simpa using horder, htnotices.trans ?_⟩
    rw [onlineEnd_of_own (by rwa [hprogress]) (hown.mpr ho)]
    simp [hreading, ownAddress, hsetup, before]
  case passed =>
    have hend : onlineEnd (atGuard n s) = ownFrameEnd (atGuard n s) :=
      onlineEnd_of_passed (hprogress.trans h) (Bool.eq_false_iff.mpr (mt hown.mp ho))
    have hclaim : claimContent (atGuard n s) = some c.content := by
      rw [hcontent]
      exact congrArg (Option.map OwnClaim.content) hc
    refine ⟨fun tag htag => hrotates ?_, fun hreset => ?_⟩
    · rw [hend, ownFrameEnd_of_entry (hclaim.trans (congrArg some htag)), hsetup]
    · rw [htstation, htorder, htnotices, hend, ownFrameEnd_of_orderReset (hclaim.trans (congrArg some hreset))]
      exact ⟨by simpa using hst.trans hstation, by simp [before], by simp [hsetup]⟩
  case report =>
    have hd : ReportDecides (atGuard n s) :=
      ⟨by rwa [hprogress], Bool.eq_false_iff.mpr (mt hown.mp ho), by rwa [hprogress]⟩
    have hsame := hpeers hpassed
    have hat {r : FrameReport} (h : a.report = r) : (atGuard n s).ac.tracker.access.report = r := by rw [haccess]; exact h
    refine ⟨fun h e b hr hkind => ⟨fun body he hb hroster => ?applied, fun body he hb hroster => ?otherRoster, fun he => ?badReset⟩,
      fun h e b hr hkind => ⟨fun hslot hplace => ?aligned, fun hslot => ?misaligned⟩,
      fun h e b hr => ⟨fun ho => ?answer, fun ho hsome => ?otherOwner, fun ho => ?noOwner⟩,
      fun hr => ⟨fun x ho => ?byMark, fun ho => ?noMark⟩, fun hr => ?absent⟩
    case applied =>
      subst he hb
      have hend := (onlineEnd_of_goodReset hd (hat hr) hkind).trans (takeOrderReset_of_agreeing (hroster.trans (by rw [hsetup])))
      obtain ⟨hp, hn⟩ := applyOrderReset_leaves h body (atGuard n s)
      refine ⟨by rw [htstation, hend]; simp, by rw [htorder, hend]; simp [hsetup], ?_, htnotices.trans ?_⟩
      · rw [htpeers, hend, hp, peerEntry_congr hsame, hsame]
      · rw [hend, hn, hreading]
    case otherRoster =>
      subst he hb
      have hend := (onlineEnd_of_goodReset hd (hat hr) hkind).trans (takeOrderReset_of_differing (by rwa [hsetup]))
      refine ⟨by rw [htstation, hend]; simpa using hst.trans hstation, by rw [htorder, hend]; simpa using horder,
        by rw [htpeers, hend]; simpa using hsame, htnotices.trans ?_⟩
      rw [hend]
      simp [hreading, before]
    case badReset => exact hdiverges (onlineEnd_of_badReset hd (hat hr) hkind he)
    case aligned =>
      exact hrotates ((onlineEnd_of_header hd (hat hr) hkind).trans
        (verifyHeader_of_aligned (by rwa [haccess]) (by rwa [horder, hsetup])))
    case misaligned =>
      exact hdiverges ((onlineEnd_of_header hd (hat hr) hkind).trans
        (verifyHeader_of_misaligned (by rwa [haccess, horder, hsetup])))
    case answer =>
      exact hrotates ((onlineEnd_of_answer hd (hat hr)).trans (placeAnswer_of_owner (howner'.trans (howner.trans ho))))
    case otherOwner =>
      exact hdiverges ((onlineEnd_of_answer hd (hat hr)).trans
        (placeAnswer_of_other (by rwa [howner', howner]) (by rwa [howner', howner])))
    case noOwner =>
      exact hdiverges ((onlineEnd_of_answer hd (hat hr)).trans (placeAnswer_of_none (howner'.trans (howner.trans ho))))
    case byMark =>
      exact hrotates ((onlineEnd_of_unread hd (hr.imp hat hat)).trans (rotateByMark_of_owner (howner'.trans (howner.trans ho))))
    case noMark =>
      exact hdiverges ((onlineEnd_of_unread hd (hr.imp hat hat)).trans (rotateByMark_of_none (howner'.trans (howner.trans ho))))
    case absent =>
      rw [htstation, htorder, htnotices, onlineEnd_of_absent hd (hat hr)]
      exact ⟨hst.trans hstation, horder, rfl⟩

end Sys2Proof.Machine
end

section
/-! The access ends of a station in RESYNC, LISTENING or LEAVING (chapter 04). -/

namespace Sys2Proof.Machine

/-! ### The cases of R68 and R70 -/

theorem resyncEnd_of_mismatched {s : State} (h : claimProgress s = some .mismatched) : resyncEnd s = s :=
  if_pos (by simp [h])

theorem resyncEnd_of_own {s : State} (h : claimProgress s ≠ some .mismatched) (hown : sourceIsOwn s = true) :
    resyncEnd s = halt s := by
  simp [resyncEnd, h, hown]

theorem ownResetPassed_iff {s : State} : ownResetPassed s = true ↔
    claimProgress s = some .passed ∧ claimContent s = some .orderReset := by
  simp [ownResetPassed]

theorem resyncEnd_of_ownReset {s : State} (h : ownResetPassed s = true) (hown : sourceIsOwn s = false) :
    resyncEnd s = setStation .online (resetOrder s.ac.setup.address s) := by
  obtain ⟨hpassed, -⟩ := ownResetPassed_iff.mp h
  simp [resyncEnd, hpassed, hown, h, ownAddress]

/-- What the report does when the own claim and the own address decide nothing: a good ORDER-RESET is taken, and `other` is
done at any other report and at one whose roster size differs (R65, R66, R68, R70). -/
def takeReport (other : State → State) (s : State) : State :=
  match s.ac.tracker.access.report with
  | .header (.frame h) .good (some body) => takeOrderReset h body other s
  | _ => other s

theorem resyncEnd_of_undecided {s : State} (h : claimProgress s ≠ some .mismatched) (hown : sourceIsOwn s = false)
    (hreset : ownResetPassed s = false) : resyncEnd s = takeReport id s := by
  have hno : ¬(claimProgress s == some .mismatched) = true := by simpa using h
  exact (if_neg hno).trans ((if_neg (by simp [hown])).trans (if_neg (by simp [hreset])))

theorem listeningEnd_of_own {s : State} (hown : sourceIsOwn s = true) : listeningEnd s = halt s := if_pos hown

theorem listeningEnd_of_undecided {s : State} (hown : sourceIsOwn s = false) :
    listeningEnd s = takeReport (setStation .resync) s :=
  if_neg (by simp [hown])

theorem takeReport_of_reset {other : State → State} {s : State} {h : FrameHeader} {body : OrderResetBody}
    (hreport : s.ac.tracker.access.report = .header (.frame h) .good (some body)) :
    takeReport other s = takeOrderReset h body other s := by
  rw [takeReport, hreport]

theorem takeReport_of_other {other : State → State} {s : State}
    (hreport : ∀ h body, s.ac.tracker.access.report ≠ .header (.frame h) .good (some body)) : takeReport other s = other s := by
  unfold takeReport
  split
  case h_1 h body heq => exact absurd heq (hreport h body)
  case h_2 => rfl

/-- What is done when no ORDER-RESET is applied leaves the station in RESYNC with its list (R66, R68, R70). -/
def GoesOn (other : State → State) (s : State) : Prop :=
  ∀ u, u.ac.station = s.ac.station → (other u).ac.station = .resync ∧ (other u).ac.order = u.ac.order ∧
    (other u).notices = u.notices ∧ (other u).peers = u.peers

/-- A station in RESYNC or LISTENING takes the report, when nothing else decides. -/
theorem accessEndAtAc_of_undecided {s : State} (hstation : s.ac.station = .resync ∨ s.ac.station = .listening)
    (hno : ¬(s.ac.station = .resync ∧ claimProgress s = some .mismatched)) (hown : sourceIsOwn s = false)
    (hreset : ¬(s.ac.station = .resync ∧ ownResetPassed s = true)) :
    ∃ other, GoesOn other s ∧ accessEndAtAc s = takeReport other s := by
  obtain h | h := hstation
  · refine ⟨id, fun u hu => ⟨hu.trans h, rfl, rfl, rfl⟩, ?_⟩
    rw [accessEndAtAc, h]
    exact resyncEnd_of_undecided (fun hm => hno ⟨h, hm⟩) hown (Bool.eq_false_iff.mpr fun hr => hreset ⟨h, hr⟩)
  · refine ⟨setStation .resync, fun u _ => ⟨by simp, by simp, by simp, by simp⟩, ?_⟩
    rw [accessEndAtAc, h]
    exact listeningEnd_of_undecided hown

/-- The own address as the source of the report takes the station to HALTED. -/
theorem accessEndAtAc_of_own {s : State} (hstation : s.ac.station = .resync ∨ s.ac.station = .listening)
    (hno : ¬(s.ac.station = .resync ∧ claimProgress s = some .mismatched)) (hown : sourceIsOwn s = true) :
    accessEndAtAc s = halt s := by
  obtain h | h := hstation
  · rw [accessEndAtAc, h]
    exact resyncEnd_of_own (fun hm => hno ⟨h, hm⟩) hown
  · rw [accessEndAtAc, h]
    exact listeningEnd_of_own hown

/-! ### LEAVING (R71, R83) -/

theorem leavingEnd_of_conflict {s : State} (h : claimProgress s ≠ some .mismatched ∧ sourceIsOwn s = true) :
    leavingEnd s = halt s := by
  simp [leavingEnd, h]

theorem leavingEnd_of_none {s : State} (h : ¬(claimProgress s ≠ some .mismatched ∧ sourceIsOwn s = true)) :
    leavingEnd s = enterOffline s := by
  refine if_neg ?_
  simpa using h

/-! ### The access end (R68, R70, R71) -/

/-- Settles O49: the cases of R68 and R70 in their order, and the end of LEAVING. -/
theorem repairAndLeavingAccessEnds : Obligations.RepairAndLeavingAccessEnds := by
  refine ⟨fun n s hdue hstation => ?repair, fun n s hdue hstation => ?leaving⟩
  all_goals
    obtain ⟨-, -, hsensing, -, -, -⟩ := id hdue
    obtain ⟨-, hkept, haccess, -, -, -, hhp⟩ := atGuard_keeps n hsensing
    obtain ⟨hst, hsetup, horder, hrestart, hcollisions⟩ := (orderKept_iff _ _).mp hkept
    have hreading : underRead (atGuard n s) = underRead s := underRead_congr hhp
    have hbefore : (takeOutcome (passTime (16 - n) s)).notices = (atGuard n s).notices := rfl
    have hprogress : claimProgress (atGuard n s) = s.ac.tracker.access.claim.map (·.progress) := by
      rw [claimProgress, haccess]
    have hown : sourceIsOwn (atGuard n s) = true ↔ s.ac.tracker.access.report.source = some s.ac.setup.address := by
      rw [sourceIsOwn_iff, haccess, hsetup]
    obtain ⟨t, hexec, -, htli, -, htte, -, htpeers, -, htnotices, htstation, -, htorder, htrestart, htcollisions⟩ :=
      guardComplete_ends hdue
    rw [hbefore]
  case repair =>
    have hcontent : claimContent (atGuard n s) = s.ac.tracker.access.claim.map (·.content) := by
      rw [claimContent, haccess]
    have hstation' := hstation
    rw [← hst] at hstation'
    have hreset : ownResetPassed (atGuard n s) = true ↔ s.ac.tracker.access.claim.map (·.progress) = some .passed ∧
        s.ac.tracker.access.claim.map (·.content) = some .orderReset := by
      rw [ownResetPassed_iff, hprogress, hcontent]
    refine ⟨t, hexec, ?_⟩
    intro a progress own mismatched ownReset good before raised
    have hmismatched : mismatched ↔ (atGuard n s).ac.station = .resync ∧ claimProgress (atGuard n s) = some .mismatched := by
      rw [hst, hprogress]
    have hownReset : ownReset ↔ (atGuard n s).ac.station = .resync ∧ ownResetPassed (atGuard n s) = true := by
      rw [hst, hreset]
    refine ⟨fun h => ?mismatched, fun h ho => ?own, fun h ho => ?ownReset, fun h ho hr => ?report⟩
    case mismatched =>
      have hend : accessEndAtAc (atGuard n s) = atGuard n s := by
        obtain ⟨hresync, hm⟩ := hmismatched.mp h
        rw [accessEndAtAc, hresync]
        exact resyncEnd_of_mismatched hm
      rw [htstation, htorder, htnotices, hend]
      exact ⟨hst.trans h.1, horder, rfl⟩
    case own =>
      have hend := accessEndAtAc_of_own hstation' (mt hmismatched.mpr h) (hown.mpr ho)
      refine ⟨by rw [htstation, hend]; simp, by rw [htorder, hend]; simpa using horder, htnotices.trans ?_⟩
      rw [hend]
      simp [hreading, ownAddress, hsetup, before]
    case ownReset =>
      have hend : accessEndAtAc (atGuard n s) = setStation .online (resetOrder s.ac.setup.address (atGuard n s)) := by
        obtain ⟨hresync, hr⟩ := hownReset.mp h
        rw [accessEndAtAc, hresync, ← hsetup]
        exact resyncEnd_of_ownReset hr (Bool.eq_false_iff.mpr (mt hown.mp ho))
      rw [htstation, htorder, htnotices, hend]
      exact ⟨by simp, by simp [hsetup], by simp [before]⟩
    case report =>
      obtain ⟨other, hother, hend⟩ := accessEndAtAc_of_undecided hstation' (mt hmismatched.mpr h)
        (Bool.eq_false_iff.mpr (mt hown.mp ho)) (mt hownReset.mpr hr)
      have hat {r : FrameReport} (h : a.report = r) : (atGuard n s).ac.tracker.access.report = r := by rw [haccess]; exact h
      have hnot (hno : ∀ h body, a.report ≠ .header (.frame h) .good (some body)) :
          accessEndAtAc (atGuard n s) = other (atGuard n s) :=
        hend.trans (takeReport_of_other fun h body hr => hno h body (by rw [haccess] at hr; exact hr))
      obtain ⟨hresync, hsame, hquiet, -⟩ := hother _ rfl
      refine ⟨fun h body hr hroster => ?applied, fun h body hr hroster => ?otherRoster, fun hno => ?notGood, fun hno => ?silent⟩
      case applied =>
        have happlied := (hend.trans (takeReport_of_reset (hat hr))).trans
          (takeOrderReset_of_agreeing (hroster.trans (by rw [hsetup])))
        obtain ⟨hp, hn⟩ := applyOrderReset_leaves h body (atGuard n s)
        refine ⟨by rw [htstation, happlied]; simp, by rw [htorder, happlied]; simp [hsetup], fun hb hin => ?_, htnotices.trans ?_⟩
        · rw [happlied, hp, if_pos hb] at htpeers
          rw [peerEntry, htpeers]
          simp [hin]
        · rw [happlied, hn, hreading]
      case otherRoster =>
        have hdiffers := (hend.trans (takeReport_of_reset (hat hr))).trans (takeOrderReset_of_differing (by rwa [hsetup]))
        obtain ⟨-, -, hraised, -⟩ := hother (raise .rosterMismatch (some h.source) none (atGuard n s)) (by simp)
        refine htnotices.trans ?_
        rw [hdiffers, hraised]
        simp [hreading, before]
      case notGood =>
        by_cases hreported : ∃ h body, a.report = .header (.frame h) .good (some body)
        · obtain ⟨h, body, hr⟩ := hreported
          have hroster : body.roster ≠ (atGuard n s).ac.setup.roster := by
            rw [hsetup]
            exact fun hsize => hno ⟨h, body, hr, hsize⟩
          have hdiffers := (hend.trans (takeReport_of_reset (hat hr))).trans (takeOrderReset_of_differing hroster)
          obtain ⟨hresync', hsame', -⟩ := hother (raise .rosterMismatch (some h.source) none (atGuard n s)) (by simp)
          rw [htstation, htorder, hdiffers]
          exact ⟨hresync', hsame'.trans (by simpa using horder)⟩
        · have hnone := hnot fun h body hr => hreported ⟨h, body, hr⟩
          rw [htstation, htorder, hnone]
          exact ⟨hresync, hsame.trans horder⟩
      case silent =>
        rw [htnotices, hnot hno]
        exact hquiet
  case leaving =>
    have hleaving : accessEndAtAc (atGuard n s) = leavingEnd (atGuard n s) := by rw [accessEndAtAc, hst, hstation]
    have hconflict : (claimProgress (atGuard n s) ≠ some .mismatched ∧ sourceIsOwn (atGuard n s) = true) ↔
        s.ac.tracker.access.claim.map (·.progress) ≠ some .mismatched ∧
          s.ac.tracker.access.report.source = some s.ac.setup.address := by
      rw [hprogress, hown]
    have hcollided := (accessEndAtAc_taken (atGuard n s)).keeps.1
    rw [hleaving] at htli htte htnotices htstation htorder htrestart
    by_cases hc : claimProgress (atGuard n s) ≠ some .mismatched ∧ sourceIsOwn (atGuard n s) = true
    · rw [leavingEnd_of_conflict hc] at htli htnotices htstation htorder htrestart
      refine ⟨t, hexec, by rw [htorder]; simpa using horder, by rw [htcollisions, hcollided, hcollisions], by rw [htli]; simp,
        by rw [htli]; simp, fun _ => ⟨by rw [htstation]; simp, by rw [htrestart]; simpa using hrestart, ?_⟩,
        fun h => absurd (hconflict.mp hc) h⟩
      rw [htnotices]
      simp [hreading, ownAddress, hsetup]
    · rw [leavingEnd_of_none hc] at htli htte htnotices htstation htorder htrestart
      exact ⟨t, hexec, by rw [htorder]; simpa using horder, by rw [htcollisions, hcollided, hcollisions], by rw [htli]; simp,
        by rw [htli]; simp, fun h => absurd (hconflict.mpr h) hc,
        fun _ => ⟨by rw [htstation]; simp, by rw [htte]; exact enterOffline_queue _, by rw [htrestart]; simp, by rw [htnotices]; simp⟩⟩

end Sys2Proof.Machine
end

section
/-! The outcome of an attempt (chapter 07): what it does to its entry. -/

namespace Sys2Proof.Machine

/-! ### How an attempt ends (R113 to R115, R121) -/

/-- The destination is SILENT once an attempt to it has gone unanswered (R91). -/
def silentAfter (s : State) (e : TxEntry) : Bool :=
  match e.destination with
  | .all => false
  | .peer a => decide (2 ≤ (peerEntry s a).unanswered) || (peerEntry s a).presence == .silent

theorem silentAfter_congr {s u : State} (h : u.peers = s.peers) (e : TxEntry) : silentAfter u e = silentAfter s e := by
  rw [silentAfter, silentAfter]
  cases e.destination with
  | all => rfl
  | peer a =>
    exact congrArg (fun p : PeerEntry => decide (2 ≤ p.unanswered) || p.presence == .silent) (peerEntry_congr h a)

/-- The last answer code of the entry after the attempt (R115). -/
def attemptAnswer (e : TxEntry) (judged : Option AnswerCode) : Option AnswerCode :=
  match e.destination, judged with
  | .peer _, some code => some code
  | _, _ => e.lastAnswer

/-- The entry has finished with an outcome, or it is back to WAITING (R114, R115). -/
def Settled (e : TxEntry) (answer : Option AnswerCode) (result : Option (MessageOutcome × Bool)) (s t : State) : Prop :=
  match result with
  | some (outcome, note) => Finished e outcome note answer s t
  | none => BackToWaiting e answer s t

/-- Only the queue, the completions and the pool decide whether an attempt is settled. -/
theorem Settled.of_eq {e : TxEntry} {answer : Option AnswerCode} {result : Option (MessageOutcome × Bool)} {s u t t' : State}
    (h : Settled e answer result u t) (hte : u.te = s.te) (hfree : u.freeBlocks = s.freeBlocks) (hte' : t'.te = t.te)
    (hfree' : t'.freeBlocks = t.freeBlocks) : Settled e answer result s t' := by
  obtain _ | ⟨outcome, note⟩ := result
  · simpa [Settled, BackToWaiting, hte, hfree, hte', hfree'] using h
  · simpa [Settled, Finished, hte, hfree, hte', hfree'] using h

theorem peersSound_at {s : State} (h : PeersSound s) {a : Nat} (ha : a < 32) :
    (peerEntry s a).unanswered ≤ 3 ∧ ((peerEntry s a).unanswered = 3 → (peerEntry s a).presence = .silent) := by
  have hin : peerEntry s a = s.peers[a] := by simp [peerEntry, ha]
  rw [hin]
  exact h _ (Vector.mem_toList_iff.mpr (Vector.getElem_mem ha))

theorem applyOutcome_settled {s : State} {tag : Tag} {e : TxEntry} (h : findEntry s tag = some e) (hd : QueueTagsDistinct s)
    (hsound : PeersSound s) (hin : ∀ a, e.destination = .peer a → a < 32) (judged : Option AnswerCode) :
    Settled e (attemptAnswer e judged) (attemptResult s e (silentAfter s e) judged) s (applyOutcome tag judged s) := by
  have hspec := applyOutcome_spec h hd judged (silentAfter s e) (attemptAnswer e judged) ?answer ?silent
  · generalize attemptResult s e (silentAfter s e) judged = result at hspec
    obtain _ | ⟨outcome, note⟩ := result
    · exact hspec
    · exact hspec
  case answer => cases hdest : e.destination <;> cases judged <;> simp [attemptAnswer, TxEntry.answered, hdest]
  case silent =>
    intro a hdest hnone
    obtain ⟨-, -, hsilent⟩ := recordJudgement_spec s tag a judged
    obtain ⟨hle, hthree⟩ := peersSound_at hsound (hin a hdest)
    rw [hsilent hnone (hin a hdest) hle hthree]
    simp [silentAfter, hdest]

/-! ### The states in which the TE takes the outcome (R45, R116) -/

/-- What the outcome of the attempt hangs on. -/
structure AttemptKept (s u : State) : Prop where
  te : u.te = s.te
  freeBlocks : u.freeBlocks = s.freeBlocks
  peers : u.peers = s.peers
  setup : u.ac.setup = s.ac.setup
  claim : u.ac.tracker.access.claim = s.ac.tracker.access.claim
  window : u.fu.window = s.fu.window

/-- An attempt whose frame has passed, and whose outcome is therefore due (R113). -/
structure AttemptDue (s : State) (c : OwnClaim) (tag : Tag) (e : TxEntry) : Prop where
  claim : s.ac.tracker.access.claim = some c
  passed : c.progress = .passed
  content : c.content = .entry tag
  found : findEntry s tag = some e
  inRange : ∀ a, e.destination = .peer a → a < 32

theorem AttemptDue.progress {s : State} {c : OwnClaim} {tag : Tag} {e : TxEntry} (h : AttemptDue s c tag e) :
    claimProgress s = some .passed := by
  simp [claimProgress, h.claim, h.passed]

theorem takeOutcome_of_passed {s : State} {c : OwnClaim} {tag : Tag} (hc : s.ac.tracker.access.claim = some c)
    (hpassed : c.progress = .passed) (hcontent : c.content = .entry tag) :
    takeOutcome s = setWindow .closed (applyOutcome tag s.fu.window.judgement s) := by
  simp [takeOutcome, hc, hpassed, hcontent]

/-- The outcome of the attempt, taken in any state that keeps what it hangs on. -/
theorem AttemptDue.settled {s u : State} {c : OwnClaim} {tag : Tag} {e : TxEntry} (h : AttemptDue s c tag e)
    (hd : QueueTagsDistinct s) (hsound : PeersSound s) (hu : AttemptKept s u) :
    Settled e (attemptAnswer e s.fu.window.judgement) (attemptResult s e (silentAfter s e) s.fu.window.judgement) s
      (takeOutcome u) := by
  have hfound : findEntry u tag = some e := by rw [findEntry, hu.te]; exact h.found
  have hd' : QueueTagsDistinct u := by rwa [QueueTagsDistinct, hu.te]
  have hsound' : PeersSound u := by rwa [PeersSound, hu.peers]
  have hsilent : silentAfter u e = silentAfter s e := silentAfter_congr hu.peers e
  have hresult (judged : Option AnswerCode) (silent : Bool) : attemptResult u e silent judged = attemptResult s e silent judged := by
    simp only [attemptResult, hu.setup]
  have hsettled := applyOutcome_settled hfound hd' hsound' h.inRange u.fu.window.judgement
  rw [hsilent, hresult, hu.window] at hsettled
  rw [takeOutcome_of_passed (hu.claim.trans h.claim) h.passed h.content, hu.window]
  exact hsettled.of_eq hu.te hu.freeBlocks rfl rfl

theorem AttemptKept.passTime (n : Nat) (s : State) : AttemptKept s (passTime n s) :=
  ⟨by simp, by simp, by simp, by simp, by simp, by simp⟩

/-- At the stuck event the TE takes the outcome before LINE-STUCK is raised or after it (R116; log 8). -/
theorem stuckNotices_takes (s : State) : ∃ u, AttemptKept s u ∧ u.li = s.li ∧ u.notices = s.notices ∧ u.hp = s.hp ∧
    (stuckNotices s = raise .lineStuck none none (takeOutcome u) ∨
      stuckNotices s = takeOutcome (raise .lineStuck none none u)) := by
  have hchosen : AttemptKept s (nextChoice s) := ⟨by simp, by simp, by simp, by simp, by simp, by simp⟩
  unfold stuckNotices
  split_ifs
  · exact ⟨nextChoice s, hchosen, by simp, by simp, by simp, .inl rfl⟩
  · exact ⟨nextChoice s, hchosen, by simp, by simp, by simp, .inr rfl⟩
  · exact ⟨s, ⟨rfl, rfl, rfl, rfl, rfl, rfl⟩, rfl, rfl, rfl, .inr rfl⟩

/-- What the stuck event leaves of the attempt is what the TE leaves of it in a state of that bit time. -/
theorem atStuck_takes {s : State} (hsensing : s.li.sensing = .active) : ∃ u, AttemptKept s u ∧
    u.li.time = s.li.time + (4096 - s.li.stuckTimer) ∧ (atStuck s).te = (takeOutcome u).te ∧
    (atStuck s).peers = (takeOutcome u).peers ∧ (atStuck s).freeBlocks = (takeOutcome u).freeBlocks := by
  let v := onLi (fun l => { l with sensing := .stuck }) (Machine.passTime (stuckLimit - s.li.stuckTimer) s)
  have htime : v.li.time = s.li.time + (4096 - s.li.stuckTimer) :=
    passTime_time (stuckLimit - s.li.stuckTimer) (s := s) (by simp [hsensing])
  have hat : atStuck s = onAccess (fun _ => AccessRecord.empty) (stuckNotices v) := rfl
  have hkept (u : State) (hu : AttemptKept v u) : AttemptKept s u :=
    ⟨by rw [hu.te]; simp [v], by rw [hu.freeBlocks]; simp [v], by rw [hu.peers]; simp [v], by rw [hu.setup]; simp [v],
      by rw [hu.claim]; simp [v], by rw [hu.window]; simp [v]⟩
  obtain ⟨u, hu, hli, -, -, h | h⟩ := stuckNotices_takes v
  · exact ⟨u, hkept u hu, by rw [hli, htime], by simp [hat, h], by simp [hat, h], by simp [hat, h]⟩
  · refine ⟨raise .lineStuck none none u, hkept _ ⟨?_, ?_, ?_, ?_, ?_, ?_⟩, by simp [hli, htime], by simp [hat, h], by simp [hat, h],
      by simp [hat, h]⟩
    · simpa using hu.te
    · simpa using hu.freeBlocks
    · simpa using hu.peers
    · simpa using hu.setup
    · simpa using hu.claim
    · simpa using hu.window

end Sys2Proof.Machine
end

section
/-! The outcome of an attempt (chapter 07): the access end and the stuck event that bring it. -/

namespace Sys2Proof.Machine

/-! ### What becomes of the queue after the outcome (R45, R71, R84, R116) -/

/-- The rest of the queue leaves the station: it is flushed, and the station is OFFLINE (R84, R123). -/
def FlushedFrom (u t : State) : Prop :=
  t.ac.station = .offline ∧
    t.te = { queue := [], completions := u.te.completions ++ u.te.queue.map TxEntry.withdrawn } ∧
    t.freeBlocks = u.freeBlocks + (u.te.queue.map fun x => (x.length + 31) / 32).sum

theorem enterOffline_flushedFrom (s : State) : FlushedFrom s (enterOffline s) := by
  have hte : (enterOffline s).te = (flushQueue (endSensing s)).te := rfl
  have hfree : (enterOffline s).freeBlocks = (flushQueue (endSensing s)).freeBlocks := rfl
  refine ⟨by simp, ?_, ?_⟩
  · rw [hte, flushQueue_te]
    rfl
  · rw [hfree, flushQueue_freeBlocks]
    rfl

/-- The attempt has been taken in `u`; what a station that stays on the line keeps of it (R56, R68, R70). -/
def KeptFrom (u t : State) : Prop := t.te = u.te ∧ t.freeBlocks = u.freeBlocks

theorem AccessTaken.messages {s t : State} (h : AccessTaken s t) (hstation : s.ac.station ≠ .leaving) : KeptFrom s t := by
  cases h
  case left h => exact absurd h hstation
  all_goals simp [KeptFrom]

/-- The access end in the state that the attempt has been taken in. -/
theorem guardComplete_settles {n : Nat} {s : State} (h : GuardDue n s) (hprogress : claimProgress s ≠ some .mismatched) :
    ∃ t, exec .guardComplete s = .next t ∧ (s.ac.station ≠ .leaving → KeptFrom (atGuard n s) t) ∧
      (s.ac.station = .leaving → s.ac.tracker.access.report.source = some s.ac.setup.address →
        t.ac.station = .halted ∧ KeptFrom (atGuard n s) t) ∧
      (s.ac.station = .leaving → s.ac.tracker.access.report.source ≠ some s.ac.setup.address → FlushedFrom (atGuard n s) t) := by
  obtain ⟨-, -, hsensing, -, -, -⟩ := id h
  obtain ⟨-, hkept, haccess, -, -, -, -⟩ := atGuard_keeps n hsensing
  obtain ⟨hst, hsetup, -⟩ := (orderKept_iff _ _).mp hkept
  obtain ⟨t, hexec, -, -, -, htte, -, -, htfree, -, htstation, -⟩ := guardComplete_ends h
  have htaken := accessEndAtAc_taken (atGuard n s)
  have hown : sourceIsOwn (atGuard n s) = true ↔ s.ac.tracker.access.report.source = some s.ac.setup.address := by
    rw [sourceIsOwn_iff, haccess, hsetup]
  have hno : claimProgress (atGuard n s) ≠ some .mismatched := by rwa [claimProgress, haccess]
  have hleaving (hl : s.ac.station = .leaving) : accessEndAtAc (atGuard n s) = leavingEnd (atGuard n s) := by
    rw [accessEndAtAc, hst, hl]
  refine ⟨t, hexec, fun hl => ?_, fun hl ho => ?_, fun hl ho => ?_⟩
  · obtain ⟨hte, hfree⟩ := htaken.messages (by rwa [hst])
    exact ⟨htte.trans hte, htfree.trans hfree⟩
  · rw [hleaving hl, leavingEnd_of_conflict ⟨hno, hown.mpr ho⟩] at htte htfree htstation
    exact ⟨by rw [htstation]; simp, by rw [htte]; simp, by rw [htfree]; simp⟩
  · have hend := (hleaving hl).trans (leavingEnd_of_none fun hc => ho (hown.mp hc.2))
    obtain ⟨hoff, hte, hfree⟩ := enterOffline_flushedFrom (atGuard n s)
    rw [hend] at htte htfree htstation
    exact ⟨htstation.trans hoff, htte.trans hte, htfree.trans hfree⟩

theorem exec_stuck_of_due {s : State} (hsensing : s.li.sensing = .active) (hx : s.li.tx = none)
    (hsettled : claimUnsettled s = false) : exec .stuck s = .next (stationAtStuck (atStuck s)) := by
  have hexec : exec .stuck s = execStuck s := rfl
  rw [hexec, execStuck, hsensing, ← declareStuck_eq]
  simp [driving, hx, hsettled]

/-- The stuck event in the state that the attempt has been taken in. -/
theorem stuck_settles {s : State} (hsensing : s.li.sensing = .active) (hx : s.li.tx = none)
    (hsettled : claimUnsettled s = false) : ∃ t, exec .stuck s = .next t ∧
      (s.ac.station ≠ .leaving → KeptFrom (atStuck s) t) ∧ (s.ac.station = .leaving → FlushedFrom (atStuck s) t) := by
  refine ⟨_, exec_stuck_of_due hsensing hx hsettled, fun hl => ?_, fun hl => ?_⟩
  · obtain ⟨-, -, hte, -, hfree, -⟩ := stationAtStuck_keeps (s := atStuck s) (by rwa [atStuck_station])
    exact ⟨hte, hfree⟩
  · rw [stationAtStuck_of_leaving (by rwa [atStuck_station])]
    exact enterOffline_flushedFrom _

/-! ### A settled attempt, and the flush after it (R84, R123) -/

/-- The completion record of an attempt that is settled, if the entry finished. -/
def ownRecord (e : TxEntry) (answer : Option AnswerCode) : Option (MessageOutcome × Bool) → List Completion
  | some (outcome, note) => [{ e.withdrawn with outcome := outcome, duplicateNote := note, lastAnswer := answer }]
  | none => []

/-- The queue that a settled attempt leaves, but for the state of the entry. -/
def leftQueue (s : State) (e : TxEntry) (answer : Option AnswerCode) : Option (MessageOutcome × Bool) → List TxEntry
  | some _ => s.te.queue.eraseP (·.tag == e.tag)
  | none => s.te.queue.map fun x => if x.tag == e.tag then { x with lastAnswer := answer } else x

/-- The blocks of a queue are those of an entry and those of the rest. -/
theorem sum_eraseP_add {q : List TxEntry} {tag : Tag} {e : TxEntry} (h : q.find? (·.tag == tag) = some e) (f : TxEntry → Nat) :
    ((q.eraseP (·.tag == tag)).map f).sum + f e = (q.map f).sum := by
  induction q with
  | nil => simp at h
  | cons x q ih =>
    by_cases hx : x.tag = tag
    · obtain rfl : x = e := by simpa [hx] using h
      simp [hx, Nat.add_comm]
    · have hrest : q.find? (·.tag == tag) = some e := by simpa [hx] using h
      have := ih hrest
      simp only [List.eraseP_cons, beq_eq_false_iff_ne.mpr hx, cond_false, List.map_cons, List.sum_cons]
      omega

/-- The flush after a settled attempt (R84, R123). -/
theorem FlushedFrom.of_settled {s u t : State} {e : TxEntry} {answer : Option AnswerCode}
    {result : Option (MessageOutcome × Bool)} (h : FlushedFrom u t) (hs : Settled e answer result s u)
    (hfound : findEntry s e.tag = some e) : t.ac.station = .offline ∧
      t.te = { queue := [], completions := s.te.completions ++ ownRecord e answer result ++
        (leftQueue s e answer result).map TxEntry.withdrawn } ∧
      t.freeBlocks = s.freeBlocks + (s.te.queue.map fun x => (x.length + 31) / 32).sum := by
  obtain ⟨hoff, hte, hfree⟩ := h
  refine ⟨hoff, ?_, ?_⟩
  · rw [hte]
    obtain _ | ⟨outcome, note⟩ := result
    · obtain ⟨hq, hc, -⟩ := hs
      rw [hq, hc]
      simp only [ownRecord, leftQueue, List.append_nil, List.map_map]
      congr 2
      refine List.map_congr_left fun x _ => ?_
      by_cases hx : x.tag = e.tag <;> simp [hx, TxEntry.withdrawn]
    · obtain ⟨hq, -, hc⟩ := hs
      rw [hq, hc]
      rfl
  · rw [hfree]
    obtain _ | ⟨outcome, note⟩ := result
    · obtain ⟨hq, -, hf⟩ := hs
      rw [hq, hf, List.map_map]
      congr 2
      refine List.map_congr_left fun x _ => ?_
      by_cases hx : x.tag = e.tag <;> simp [hx]
    · obtain ⟨hq, hf, -⟩ := hs
      have := sum_eraseP_add hfound fun x => (x.length + 31) / 32
      rw [hq, hf]
      omega

theorem KeptFrom.settled {s u t : State} {e : TxEntry} {answer : Option AnswerCode} {result : Option (MessageOutcome × Bool)}
    (h : KeptFrom u t) (hs : Settled e answer result s u) : Settled e answer result s t :=
  hs.of_eq rfl rfl h.1 h.2

/-! ### How the attempt ends, as the statement says it (R114, R121) -/

/-- The outcome that ends an attempt whose frame passed, with no regard to a cancel that is pending (R114). -/
theorem attemptResult_eq (s : State) (e : TxEntry) (silent : Bool) (judged : Option AnswerCode)
    {ended : Option (MessageOutcome × Bool)} (hall : e.destination = .all → ended = some (.sent, false))
    (hpeer : ∀ a, e.destination = .peer a → ended = finalOutcome s.ac.setup.retry e.attempts silent judged) :
    (if ended = none ∧ e.cancelPending = true then some (.cancelled, false) else ended) =
      attemptResult s e silent judged := by
  cases hdest : e.destination with
  | all => simp [attemptResult, hdest, hall hdest]
  | peer a =>
    rw [hpeer a hdest]
    cases hfinal : finalOutcome s.ac.setup.retry e.attempts silent judged with
    | none => simp [attemptResult, hdest, hfinal]
    | some outcome => simp [attemptResult, hdest, hfinal]

/-- Settles O50: the TE settles the attempt, and the station keeps what is left, or flushes it. -/
theorem attemptOutcome : Obligations.AttemptOutcome := by
  intro s c tag e htags hsound hc hpassed hcontent hfound hin judged atLimit answer ended result
  have hdue : AttemptDue s c tag e := ⟨hc, hpassed, hcontent, hfound, hin⟩
  have hanswer : answer = attemptAnswer e judged := by
    cases hdest : e.destination <;> cases hjudged : judged <;> simp [answer, attemptAnswer, hdest, hjudged]
  have hresult : result = attemptResult s e (silentAfter s e) judged := by
    refine attemptResult_eq s e (silentAfter s e) judged (fun h => by simp [ended, h]) fun a h => ?_
    have hsilent : silentAfter s e = true ↔ 2 ≤ (peerEntry s a).unanswered ∨ (peerEntry s a).presence = .silent := by
      simp [silentAfter, h]
    simp only [ended, h, atLimit]
    cases judged with
    | none => simp [finalOutcome, hsilent]
    | some code => cases code <;> rfl
  have hsettles (u : State) (hu : AttemptKept s u) : Settled e answer result s (takeOutcome u) := by
    rw [hanswer, hresult]
    exact hdue.settled htags.queue hsound hu
  have hself : findEntry s e.tag = some e := (findEntry_mem hfound).2.symm ▸ hfound
  have hno : claimProgress s ≠ some .mismatched := by simp [hdue.progress]
  have hunsettled : claimUnsettled s = false := by simp [claimUnsettled, hdue.progress]
  clear_value result answer
  intro settled left own flushed joined
  have hleft : left = leftQueue s e answer result := by cases result <;> rfl
  have hown : own = ownRecord e answer result := by cases result <;> rfl
  have hsettled (t : State) (h : Settled e answer result s t) : settled t := by cases result <;> exact h
  have hflushed {u t : State} (h : FlushedFrom u t) (hs : Settled e answer result s u) : flushed t := by
    obtain ⟨hoff, hte, hfree⟩ := h.of_settled hs hself
    exact ⟨hoff, by rw [hown, hleft]; exact hte, hfree⟩
  have hjoined (h : joined) : s.ac.station ≠ .leaving := by
    obtain h | h | h := h <;> simp [h]
  refine ⟨fun n hn => ?guard, fun hactive hx => ?stuck⟩
  case guard =>
    obtain ⟨t, hexec, hstays, hhalts, hleaves⟩ := guardComplete_settles hn hno
    have hs : Settled e answer result s (atGuard n s) := hsettles _ (.passTime (16 - n) s)
    exact ⟨t, hexec, fun hj => hsettled _ ((hstays (hjoined hj)).settled hs),
      fun hl ho => ⟨(hhalts hl ho).1, hsettled _ ((hhalts hl ho).2.settled hs)⟩, fun hl ho => hflushed (hleaves hl ho) hs⟩
  case stuck =>
    obtain ⟨t, hexec, hstays, hleaves⟩ := stuck_settles hactive hx hunsettled
    obtain ⟨u, hu, -, hte, -, hfree⟩ := atStuck_takes hactive
    have hs : Settled e answer result s (atStuck s) := (hsettles u hu).of_eq rfl rfl hte hfree
    exact ⟨t, hexec, fun hj => hsettled _ ((hstays (hjoined hj)).settled hs), fun hl => hflushed (hleaves hl) hs⟩

end Sys2Proof.Machine
end

section
/-! The outcome of an attempt (chapter 07): what it does to the peer it was for. -/

namespace Sys2Proof.Machine

/-! ### The outcome at the TE (R91, R94, R98, R114) -/

theorem PeerEntry.silenced_iff {p : PeerEntry} {judged : Option AnswerCode} :
    p.Silenced judged ↔ judged = none ∧ p.unanswered = 2 ∧ p.presence ≠ .silent := Iff.rfl

/-- The entry of a destination after the outcome of an attempt, by the bit time and by whether the attempt's entry holds a
sequence and has left the queue (R91, R94, R98). -/
def PeerEntry.attempted (p : PeerEntry) (judged : Option AnswerCode) (expiry : Nat) (advanced : Prop) [Decidable advanced] :
    PeerEntry :=
  { p.judged judged expiry with nextSend := p.nextSend + if advanced then 1 else 0 }

section Due
variable {s u : State} {c : OwnClaim} {tag : Tag} {e : TxEntry} {a : Nat}

/-- The Peer Table after the TE has taken the outcome in a state that keeps what the outcome hangs on. -/
theorem AttemptDue.peers (h : AttemptDue s c tag e) (hd : e.destination = .peer a) (hu : AttemptKept s u) (x : Nat) :
    peerEntry (takeOutcome u) x = if x ≠ a then peerEntry s x else
      (peerEntry s a).attempted s.fu.window.judgement (u.li.time + s.ac.setup.holdOff * 256)
        ((takeOutcome u).te.queue.length < s.te.queue.length ∧ e.sequence ≠ none) := by
  have hfound : findEntry u tag = some e := by rw [findEntry, hu.te]; exact h.found
  obtain ⟨hpeers, -⟩ := applyOutcome_peers hfound hd (h.inRange a hd) u.fu.window.judgement
  rw [takeOutcome_of_passed (hu.claim.trans h.claim) h.passed h.content]
  have hx := hpeers x
  rw [hu.window, hu.te, hu.setup, peerEntry_congr hu.peers a, peerEntry_congr hu.peers x] at hx
  rw [hu.window]
  by_cases hxa : x = a
  · rw [if_pos hxa] at hx
    rw [if_neg (not_not.mpr hxa)]
    exact hx
  · rw [if_neg hxa] at hx
    rw [if_pos hxa]
    exact hx

/-- PEER-SILENT is raised when the third attempt in a row goes unanswered (R91). -/
theorem AttemptDue.notices (h : AttemptDue s c tag e) (hd : e.destination = .peer a) (hu : AttemptKept s u) (hhp : u.hp = s.hp) :
    (takeOutcome u).notices = if (peerEntry s a).Silenced s.fu.window.judgement
      then addNotice (underRead s) { kind := .peerSilent, subject := some a, detail := none } u.notices else u.notices := by
  have hfound : findEntry u tag = some e := by rw [findEntry, hu.te]; exact h.found
  obtain ⟨-, hnotices⟩ := applyOutcome_peers hfound hd (h.inRange a hd) u.fu.window.judgement
  rw [takeOutcome_of_passed (hu.claim.trans h.claim) h.passed h.content]
  rw [hu.window, noticesJudged, peerEntry_congr hu.peers a, underRead_congr hhp] at hnotices
  rw [hu.window]
  exact hnotices

/-- An attempt to a peer ends with the entry finished, or back in the queue (R114, R115, R121). -/
theorem applyOutcome_ends (h : findEntry u tag = some e) (hd : e.destination = .peer a) (judged : Option AnswerCode) :
    (∃ outcome note, applyOutcome tag judged u = finishEntry tag outcome note (recordJudgement tag a judged u)) ∨
      applyOutcome tag judged u = updateEntry tag (fun e => { e with state := .waiting }) (recordJudgement tag a judged u) := by
  simp only [applyOutcome, h, hd]
  split
  · exact .inl ⟨_, _, rfl⟩
  · split_ifs
    · exact .inl ⟨_, _, rfl⟩
    · exact .inr rfl

end Due

/-! ### The entries of a queue that hold a sequence (R94, R123) -/

/-- The entries to a peer that hold a sequence. -/
def sequencedTo (x : Nat) (q : List TxEntry) : Nat := q.countP fun y => y.destination = .peer x ∧ y.sequence ≠ none

theorem sequencedTo_map (x : Nat) (q : List TxEntry) {f : TxEntry → TxEntry}
    (hf : ∀ y, (f y).destination = y.destination ∧ (f y).sequence = y.sequence) :
    sequencedTo x (q.map f) = sequencedTo x q := by
  rw [sequencedTo, sequencedTo, List.countP_map]
  refine List.countP_congr fun y _ => ?_
  obtain ⟨hdest, hseq⟩ := hf y
  simp [hdest, hseq]

theorem sequencedTo_eraseP (x : Nat) {q : List TxEntry} {tag : Tag} {e : TxEntry} (h : q.find? (·.tag == tag) = some e) :
    sequencedTo x (q.eraseP (·.tag == tag)) + (if e.destination = .peer x ∧ e.sequence ≠ none then 1 else 0) =
      sequencedTo x q := by
  induction q with
  | nil => simp at h
  | cons y q ih =>
    by_cases hy : y.tag = tag
    · obtain rfl : y = e := by simpa [hy] using h
      simp [sequencedTo, hy, List.countP_cons]
    · have hrest : q.find? (·.tag == tag) = some e := by simpa [hy] using h
      have hcount := ih hrest
      simp only [List.eraseP_cons, beq_eq_false_iff_ne.mpr hy, cond_false, sequencedTo, List.countP_cons] at hcount ⊢
      omega

/-- What the outcome takes out of the queue, it adds to the next send sequence (R94). -/
theorem applyOutcome_sequenced {u : State} {tag : Tag} {e : TxEntry} {a : Nat} (h : findEntry u tag = some e)
    (hd : e.destination = .peer a) (ha : a < 32) (judged : Option AnswerCode) (x : Nat) :
    sequencedTo x (applyOutcome tag judged u).te.queue +
        (if x = a ∧ (applyOutcome tag judged u).te.queue.length < u.te.queue.length ∧ e.sequence ≠ none then 1 else 0) =
      sequencedTo x u.te.queue := by
  obtain ⟨hrecorded, -, -⟩ := recordJudgement_spec u tag a judged
  have hmap : sequencedTo x (recordJudgement tag a judged u).te.queue = sequencedTo x u.te.queue := by
    rw [hrecorded]
    exact sequencedTo_map x _ fun y => by by_cases hy : y.tag = tag <;> simp [hy, TxEntry.answered]
  have hfound : findEntry (recordJudgement tag a judged u) tag = some (e.answered judged) := by
    simp only [findEntry, hrecorded]
    exact find_map_tag h fun _ => rfl
  have hlength : (recordJudgement tag a judged u).te.queue.length = u.te.queue.length := by simp [hrecorded]
  obtain ⟨outcome, note, hend⟩ | hend := applyOutcome_ends h hd judged
  · obtain ⟨hte, -⟩ := finishEntry_found hfound outcome note
    obtain ⟨hshorter, -⟩ := finishEntry_peers hfound (a := a) hd ha outcome note
    rw [hlength] at hshorter
    have hcond : (x = a ∧ (finishEntry tag outcome note (recordJudgement tag a judged u)).te.queue.length < u.te.queue.length ∧
        e.sequence ≠ none) ↔ (e.answered judged).destination = .peer x ∧ (e.answered judged).sequence ≠ none := by
      simp [TxEntry.answered, hd, hshorter, eq_comm]
    rw [hend, if_congr hcond rfl rfl, ← hmap, ← sequencedTo_eraseP x hfound, hte]
  · have hsame : (updateEntry tag (fun e => { e with state := .waiting }) (recordJudgement tag a judged u)).te.queue.length =
        u.te.queue.length := by simp [hlength]
    rw [hend, hsame, if_neg (by simp), ← hmap, Nat.add_zero]
    exact sequencedTo_map x _ fun y => by by_cases hy : y.tag = tag <;> simp [hy]

/-- Settles the first half of O51: the outcome of an attempt, taken by itself. -/
theorem applyOutcome_updatesPeer {s : State} {tag : Tag} {e : TxEntry} {a : Nat} (judged : Option AnswerCode)
    (h : findEntry s tag = some e) (hd : e.destination = .peer a) (ha : a < 32) :
    let p := peerEntry s a
    let t := applyOutcome tag judged s
    let q := peerEntry t a
    let finished := t.te.queue.length < s.te.queue.length
    (∀ x, x ≠ a → peerEntry t x = peerEntry s x) ∧
    q.gate = p.gate ∧ q.lastAccepted = p.lastAccepted ∧
    q.nextSend = p.nextSend + (if finished ∧ e.sequence ≠ none then 1 else 0) ∧
    (judged ≠ none → q.unanswered = 0 ∧ q.presence = p.presence ∧ t.notices = s.notices) ∧
    (judged = some .full → q.holdOff = some (.running (s.li.time + s.ac.setup.holdOff * 256))) ∧
    (judged ≠ some .full → q.holdOff = p.holdOff) ∧
    (judged = none → q.unanswered = min 3 (p.unanswered + 1) ∧
      (p.unanswered = 2 ∧ p.presence ≠ .silent → q.presence = .silent ∧
        t.notices = addNotice (underRead s) { kind := .peerSilent, subject := some a, detail := none } s.notices) ∧
      (¬(p.unanswered = 2 ∧ p.presence ≠ .silent) → q.presence = p.presence ∧ t.notices = s.notices)) := by
  intro p t q finished
  obtain ⟨hpeers, hnotices⟩ := applyOutcome_peers h hd ha judged
  have hself : q = p.attempted judged (s.li.time + s.ac.setup.holdOff * 256) (finished ∧ e.sequence ≠ none) :=
    (hpeers a).trans (if_pos rfl)
  rw [noticesJudged] at hnotices
  refine ⟨fun x hx => (hpeers x).trans (if_neg hx), by rw [hself]; rfl, by rw [hself]; rfl, by rw [hself]; rfl, fun hj => ?_,
    fun hj => ?_, fun hj => ?_, fun hj => ⟨?_, fun hs => ?_, fun hs => ?_⟩⟩
  · have hno : ¬p.Silenced judged := fun h => hj h.1
    rw [hself]
    refine ⟨if_neg hj, if_neg hno, hnotices.trans (if_neg hno)⟩
  · rw [hself]
    exact if_pos hj
  · rw [hself]
    exact if_neg hj
  · rw [hself]
    exact if_pos hj
  · have hyes : p.Silenced judged := ⟨hj, hs⟩
    rw [hself]
    exact ⟨if_pos hyes, hnotices.trans (if_pos hyes)⟩
  · have hno : ¬p.Silenced judged := fun h => hs h.2
    rw [hself]
    exact ⟨if_neg hno, hnotices.trans (if_neg hno)⟩

end Sys2Proof.Machine
end

section
/-! The outcome of an attempt (chapter 07): the Peer Table and the notices after the access end and the stuck event. -/

namespace Sys2Proof.Machine

/-! ### The Peer Table after the outcome -/

/-- The Peer Table after the outcome of an attempt to `a` (R91, R94, R98). -/
def peerOutcome (s : State) (a expiry : Nat) (advanced : Prop) [Decidable advanced] (x : Nat) : PeerEntry :=
  if x ≠ a then peerEntry s x else (peerEntry s a).attempted s.fu.window.judgement expiry advanced

theorem PeerEntry.freeze_match (now : Nat) (p : PeerEntry) : p.freeze now = { p with holdOff := match p.holdOff with
    | some (.running expiry) => some (.frozen (expiry - now))
    | other => other } := by
  obtain ⟨_, _, _, _, _, holdOff⟩ := p
  obtain _ | holdOff := holdOff
  · rfl
  · cases holdOff <;> rfl

theorem PeerEntry.freeze_withNextSend (now : Nat) {p q : PeerEntry} (m : Seq) (h : { p with nextSend := m } = { q with nextSend := m }) :
    { p.freeze now with nextSend := m } = { q.freeze now with nextSend := m } := by
  rw [PeerEntry.freeze_eq, PeerEntry.freeze_eq]
  simp only [PeerEntry.mk.injEq] at h ⊢
  simp [h]

theorem peerOutcome_lastAccepted (s : State) (a expiry : Nat) (advanced : Prop) [Decidable advanced] (x : Nat) :
    (peerOutcome s a expiry advanced x).lastAccepted = (peerEntry s x).lastAccepted := by
  by_cases hx : x = a <;> simp [peerOutcome, hx, PeerEntry.attempted, PeerEntry.judged]

section Due
variable {s u v : State} {c : OwnClaim} {tag : Tag} {e : TxEntry} {a : Nat}

/-- What stands when the TE has taken the outcome: the queue, the Peer Table and the bit time of `takeOutcome u`. -/
structure OutcomeTaken (s u v : State) : Prop where
  kept : AttemptKept s u
  te : v.te = (takeOutcome u).te
  peers : v.peers = (takeOutcome u).peers
  time : v.li.time = u.li.time

theorem AttemptDue.peersTaken (h : AttemptDue s c tag e) (hd : e.destination = .peer a) (hv : OutcomeTaken s u v) (x : Nat) :
    peerEntry v x = peerOutcome s a (v.li.time + s.ac.setup.holdOff * 256)
      (v.te.queue.length < s.te.queue.length ∧ e.sequence ≠ none) x := by
  simp only [hv.te, hv.time]
  exact (peerEntry_congr hv.peers x).trans (h.peers hd hv.kept x)

/-- What the outcome takes out of the queue, it adds to the next send sequence (R94). -/
theorem AttemptDue.sequenced (h : AttemptDue s c tag e) (hd : e.destination = .peer a) (hv : OutcomeTaken s u v) (x : Nat) :
    sequencedTo x v.te.queue + (if x = a ∧ v.te.queue.length < s.te.queue.length ∧ e.sequence ≠ none then 1 else 0) =
      sequencedTo x s.te.queue := by
  have hfound : findEntry u tag = some e := by rw [findEntry, hv.kept.te]; exact h.found
  have hcount := applyOutcome_sequenced hfound hd (h.inRange a hd) u.fu.window.judgement x
  have hte : v.te = (applyOutcome tag u.fu.window.judgement u).te := by
    rw [hv.te, takeOutcome_of_passed (hv.kept.claim.trans h.claim) h.passed h.content]
    rfl
  rw [hte, ← hv.kept.te]
  exact hcount

/-- The flush after the outcome (R84, R94, R100, R123). -/
theorem AttemptDue.peersFlushed (h : AttemptDue s c tag e) (hd : e.destination = .peer a) (hv : OutcomeTaken s u v)
    (advanced : Prop) [Decidable advanced] {x : Nat} (hx : x < 32) : peerEntry (enterOffline v) x =
      { (peerOutcome s a (v.li.time + s.ac.setup.holdOff * 256) advanced x).freeze v.li.time with
        nextSend := (peerEntry s x).nextSend + BitVec.ofNat 4 (sequencedTo x s.te.queue) } := by
  have hnext (now : Nat) (p : PeerEntry) : (p.freeze now).nextSend = p.nextSend := by rw [PeerEntry.freeze_eq]
  have hpeer := h.peersTaken hd hv x
  have hflush := peerEntry_enterOffline v hx
  rw [hnext] at hflush
  have hsum : (peerEntry v x).nextSend + BitVec.ofNat 4 (sequencedTo x v.te.queue) =
      (peerEntry s x).nextSend + BitVec.ofNat 4 (sequencedTo x s.te.queue) := by
    rw [← h.sequenced hd hv x, hpeer, peerOutcome]
    by_cases hxa : x = a
    · by_cases hfinished : v.te.queue.length < s.te.queue.length ∧ e.sequence ≠ none
      · simp [hxa, hfinished, PeerEntry.attempted, BitVec.ofNat_add, add_comm, add_left_comm, BitVec.add_assoc]
      · simp [hxa, hfinished, PeerEntry.attempted]
    · simp [hxa]
  rw [hflush]
  refine Eq.trans (congrArg (fun m => { (peerEntry v x).freeze v.li.time with nextSend := m }) hsum) ?_
  refine PeerEntry.freeze_withNextSend _ _ ?_
  rw [hpeer, peerOutcome, peerOutcome]
  by_cases hxa : x = a <;> simp [hxa, PeerEntry.attempted]

end Due

/-! ### The access end of a station whose frame passed (R56, R68, R70, R71) -/

/-- An access end changes the last accepted sequence of a peer and nothing else of the Peer Table, unless the station
leaves the line or halts (R65). -/
def AcceptedAside (s t : State) : Prop :=
  ∀ x y, { peerEntry t x with lastAccepted := y } = { peerEntry s x with lastAccepted := y }

theorem AcceptedAside.of_eq {s t : State} (h : t.peers = s.peers) : AcceptedAside s t := by
  intro x y
  rw [peerEntry_congr h]

theorem applyOrderReset_acceptedAside (h : FrameHeader) (body : OrderResetBody) (s : State) :
    AcceptedAside s (applyOrderReset h body s) := by
  intro x y
  obtain ⟨hpeers, -⟩ := applyOrderReset_leaves h body s
  by_cases hrestart : body.restart = true
  · have hsame := peerEntry_congr (s := updatePeer h.source (fun e => { e with lastAccepted := none }) s)
      (hpeers.trans (if_pos hrestart)) x
    rw [hsame]
    by_cases hx : x = h.source
    · by_cases hin : x < 32
      · subst hx
        simp [hin]
      · rw [peerEntry_outside _ (by omega), peerEntry_outside _ (by omega)]
    · rw [peerEntry_updatePeer_other _ _ hx]
  · rw [peerEntry_congr (hpeers.trans (if_neg hrestart))]

theorem takeReport_acceptedAside {other : State → State} {s : State} (h : GoesOn other s) :
    AcceptedAside s (takeReport other s) := by
  by_cases hreport : ∃ f body, s.ac.tracker.access.report = .header (.frame f) .good (some body)
  · obtain ⟨f, body, hreport⟩ := hreport
    rw [takeReport_of_reset hreport]
    by_cases hroster : body.roster = s.ac.setup.roster
    · rw [takeOrderReset_of_agreeing hroster]
      exact applyOrderReset_acceptedAside f body s
    · obtain ⟨-, -, -, hpeers⟩ := h (raise .rosterMismatch (some f.source) none s) (by simp)
      rw [takeOrderReset_of_differing hroster]
      exact .of_eq (hpeers.trans (by simp))
  · rw [takeReport_of_other fun f body hf => hreport ⟨f, body, hf⟩]
    exact .of_eq (h s rfl).2.2.2

section Passed
variable {s : State} {tag : Tag} (hpassed : claimProgress s = some .passed) (hcontent : claimContent s = some (.entry tag))
include hpassed hcontent

theorem accessEndAtAc_of_online_foreign (hstation : s.ac.station = .online) (hown : sourceIsOwn s = false) :
    accessEndAtAc s = rotateOrder s.ac.setup.address s := by
  rw [accessEndAtAc, hstation]
  exact (onlineEnd_of_passed hpassed hown).trans (ownFrameEnd_of_entry hcontent)

theorem accessEndAtAc_foreign (hstation : s.ac.station = .online ∨ s.ac.station = .resync ∨ s.ac.station = .listening)
    (hown : sourceIsOwn s = false) : AcceptedAside s (accessEndAtAc s) := by
  obtain h | h := hstation
  · rw [accessEndAtAc_of_online_foreign hpassed hcontent h hown]
    exact .of_eq (by simp)
  · have hno : ¬(s.ac.station = .resync ∧ claimProgress s = some .mismatched) := by simp [hpassed]
    have hreset : ¬(s.ac.station = .resync ∧ ownResetPassed s = true) := by simp [ownResetPassed_iff, hcontent]
    obtain ⟨other, hother, hend⟩ := accessEndAtAc_of_undecided h hno hown hreset
    rw [hend]
    exact takeReport_acceptedAside hother

omit hcontent in
theorem accessEndAtAc_own (hstation : (s.ac.station = .online ∨ s.ac.station = .resync ∨ s.ac.station = .listening) ∨
    s.ac.station = .leaving) (hown : sourceIsOwn s = true) : accessEndAtAc s = halt s := by
  have hno : claimProgress s ≠ some .mismatched := by simp [hpassed]
  obtain (h | h) | h := hstation
  · rw [accessEndAtAc, h]
    exact onlineEnd_of_own hno hown
  · exact accessEndAtAc_of_own h (fun h => hno h.2) hown
  · rw [accessEndAtAc, h]
    exact leavingEnd_of_conflict ⟨hno, hown⟩

end Passed

/-! ### The stuck event -/

/-- The stuck event stands in the bit time in which the stuck timer reaches its limit. -/
theorem atStuck_outcomeTaken {s : State} (hsensing : s.li.sensing = .active) : ∃ u, OutcomeTaken s u (atStuck s) ∧
    (atStuck s).li.time = s.li.time + (4096 - s.li.stuckTimer) := by
  obtain ⟨u, hu, htime, hte, hpeers, -⟩ := atStuck_takes hsensing
  have hat : (atStuck s).li.time = s.li.time + (4096 - s.li.stuckTimer) := by
    have := passTime_time (stuckLimit - s.li.stuckTimer) (s := s) (by simp [hsensing])
    simpa [atStuck, stuckLimit] using this
  exact ⟨u, ⟨hu, hte, hpeers, hat.trans htime.symm⟩, hat⟩

/-- The notices of the stuck event: LINE-STUCK, and PEER-SILENT before it or after it (R91, R176; log 8). -/
theorem AttemptDue.stuckNotices {s : State} {c : OwnClaim} {tag : Tag} {e : TxEntry} {a : Nat} (h : AttemptDue s c tag e)
    (hd : e.destination = .peer a) :
    let silence : Notice := { kind := .peerSilent, subject := some a, detail := none }
    let stuckLine : Notice := { kind := .lineStuck, subject := none, detail := none }
    (¬(peerEntry s a).Silenced s.fu.window.judgement →
      (atStuck s).notices = addNotice (underRead s) stuckLine s.notices) ∧
    ((peerEntry s a).Silenced s.fu.window.judgement →
      (atStuck s).notices = addNotice (underRead s) stuckLine (addNotice (underRead s) silence s.notices) ∨
      (atStuck s).notices = addNotice (underRead s) silence (addNotice (underRead s) stuckLine s.notices)) := by
  intro silence stuckLine
  let v := onLi (fun l => { l with sensing := .stuck }) (passTime (stuckLimit - s.li.stuckTimer) s)
  have hat : (atStuck s).notices = (Machine.stuckNotices v).notices := by simp [atStuck, v]
  have hreading {u : State} (hu : u.hp = v.hp) : underRead u = underRead s := underRead_congr (hu.trans (by simp [v]))
  have hkept {u : State} (hu : AttemptKept v u) : AttemptKept s u :=
    ⟨by rw [hu.te]; simp [v], by rw [hu.freeBlocks]; simp [v], by rw [hu.peers]; simp [v], by rw [hu.setup]; simp [v],
      by rw [hu.claim]; simp [v], by rw [hu.window]; simp [v]⟩
  obtain ⟨u, hu, -, hn, hhp, hend | hend⟩ := stuckNotices_takes v
  · have htaken := h.notices hd (hkept hu) (hhp.trans (by simp [v]))
    have hall : (atStuck s).notices = addNotice (underRead s) stuckLine (takeOutcome u).notices := by
      have hread : underRead (takeOutcome u) = underRead s := hreading ((takeOutcome_keeps u).2.2.1.trans hhp)
      rw [hat, hend, raise_notices, hread]
    rw [hn, show v.notices = s.notices by simp [v]] at htaken
    refine ⟨fun hno => ?_, fun hyes => .inl ?_⟩
    · rw [hall, htaken, if_neg hno]
    · rw [hall, htaken, if_pos hyes]
  · have hraised : AttemptKept s (raise .lineStuck none none u) := by
      obtain ⟨hte, hfree, hpeers, hsetup, hclaim, hwindow⟩ := hkept hu
      exact ⟨by simpa using hte, by simpa using hfree, by simpa using hpeers, by simpa using hsetup, by simpa using hclaim,
        by simpa using hwindow⟩
    have htaken := h.notices hd hraised (by simpa using hhp.trans (by simp [v]))
    have hline : (raise .lineStuck none none u).notices = addNotice (underRead s) stuckLine s.notices := by
      rw [raise_notices, hreading hhp, hn]
      simp [v, stuckLine]
    rw [hline] at htaken
    refine ⟨fun hno => ?_, fun hyes => .inr ?_⟩
    · rw [hat, hend, htaken, if_neg hno]
    · rw [hat, hend, htaken, if_pos hyes]

/-- Settles O51: the outcome by itself, and then at the access end and at the stuck event. -/
theorem attemptUpdatesPeer : Obligations.AttemptUpdatesPeer := by
  refine ⟨fun s tag e a judged h hd ha => applyOutcome_updatesPeer judged h hd ha, ?_⟩
  intro s c tag e a hc hpassed hcontent hfound hd ha p judged silenced outcome frozen flushed silence stuckLine own joined
  have hdue : AttemptDue s c tag e := ⟨hc, hpassed, hcontent, hfound, fun b hb => by simp_all⟩
  have houtcome (now : Nat) (t : State) (x : Nat) : outcome now t x = peerOutcome s a (now + s.ac.setup.holdOff * 256)
      (t.te.queue.length < s.te.queue.length ∧ e.sequence ≠ none) x := rfl
  have hfrozen (now : Nat) (q : PeerEntry) : frozen now q = q.freeze now := (PeerEntry.freeze_match now q).symm
  have hflushed {u v : State} (hv : OutcomeTaken s u v) (t : State) {x : Nat} (hx : x < 32) :
      peerEntry (enterOffline v) x = flushed v.li.time t x := by
    have hflush := hdue.peersFlushed hd hv (t.te.queue.length < s.te.queue.length ∧ e.sequence ≠ none) hx
    rw [← houtcome, ← hfrozen] at hflush
    exact hflush
  have hunsettled : claimUnsettled s = false := by simp [claimUnsettled, hdue.progress]
  refine ⟨fun k => hdue.notices hd (.passTime k s) (by simp) |>.trans (by simp [silenced, silence, p, judged]), fun n hn => ?guard,
    fun hactive hx => ?stuck⟩
  case guard =>
    obtain ⟨-, -, hsensing, -, -, -⟩ := id hn
    obtain ⟨hli, hkept, haccess, -⟩ := atGuard_keeps n hsensing
    obtain ⟨hst, hsetup, -⟩ := (orderKept_iff _ _).mp hkept
    have hnow : (atGuard n s).li.time = s.li.time + (16 - n) := by rw [hli]
    have htaken : OutcomeTaken s (passTime (16 - n) s) (atGuard n s) :=
      ⟨.passTime _ s, rfl, rfl, by simp [atGuard]⟩
    have hown : sourceIsOwn (atGuard n s) = true ↔ own := by rw [sourceIsOwn_iff, haccess, hsetup]
    have hprogress : claimProgress (atGuard n s) = some .passed := by rw [claimProgress, haccess]; exact hdue.progress
    have hclaim : claimContent (atGuard n s) = some (.entry tag) := by simp [claimContent, haccess, hc, hcontent]
    have hjoined (h : joined) : (atGuard n s).ac.station = .online ∨ (atGuard n s).ac.station = .resync ∨
        (atGuard n s).ac.station = .listening := by rwa [hst]
    obtain ⟨t, hexec, -, -, -, htte, -, htpeers, -⟩ := guardComplete_ends hn
    have hend := accessEndAtAc_taken (atGuard n s)
    have hhalts (h : joined ∨ s.ac.station = .leaving) (ho : own) : accessEndAtAc (atGuard n s) = halt (atGuard n s) :=
      accessEndAtAc_own hprogress (h.imp hjoined fun h => hst.trans h) (hown.mpr ho)
    have hpeer (ht : t.te = (atGuard n s).te) (x : Nat) :
        peerEntry (atGuard n s) x = outcome (s.li.time + (16 - n)) t x := by
      rw [houtcome, ht, ← hnow]
      exact hdue.peersTaken hd htaken x
    have hstays (h : joined) : t.te = (atGuard n s).te := by
      have hno : (atGuard n s).ac.station ≠ .leaving := by obtain h | h | h := hjoined h <;> simp [h]
      exact htte.trans (hend.messages hno).1
    refine ⟨t, hexec, fun hj ho x => ?foreign, fun hj ho x => ?online, fun hj ho x => ?halted, fun hl ho x hx => ?flushed⟩
    case foreign =>
      have haside := accessEndAtAc_foreign hprogress hclaim (hjoined hj) (Bool.eq_false_iff.mpr (mt hown.mp ho)) x
        (peerEntry s x).lastAccepted
      have hsame : (outcome (s.li.time + (16 - n)) t x).lastAccepted = (peerEntry s x).lastAccepted :=
        peerOutcome_lastAccepted s a _ _ x
      rw [peerEntry_congr htpeers, haside, hpeer (hstays hj), ← hsame]
    case online =>
      have hrotates := accessEndAtAc_of_online_foreign hprogress hclaim (hst.trans hj) (Bool.eq_false_iff.mpr (mt hown.mp ho))
      rw [peerEntry_congr htpeers, hrotates, peerEntry_congr (s := atGuard n s) (by simp), hpeer (hstays (.inl hj)), houtcome,
        peerOutcome_lastAccepted]
    case halted =>
      rw [hhalts hj ho] at htte htpeers
      rw [peerEntry_congr htpeers, peerEntry_halt, hnow, hpeer (htte.trans (by simp)), hfrozen]
    case flushed =>
      have hleaves : accessEndAtAc (atGuard n s) = enterOffline (atGuard n s) := by
        rw [accessEndAtAc, hst, hl]
        exact leavingEnd_of_none fun h => ho (hown.mp h.2)
      rw [peerEntry_congr htpeers, hleaves, hflushed htaken t hx, hnow]
  case stuck =>
    obtain ⟨u, htaken, hnow⟩ := atStuck_outcomeTaken hactive
    obtain ⟨hone, htwo⟩ := hdue.stuckNotices hd
    have hnotices : (stationAtStuck (atStuck s)).notices = (atStuck s).notices := by simp
    refine ⟨_, exec_stuck_of_due hactive hx hunsettled, fun hj x => ?joined, fun hl x hx => ?leaving,
      fun hno => hnotices.trans (hone hno), fun hyes => ?_⟩
    case joined =>
      have hno : (atStuck s).ac.station ≠ .leaving := by
        rw [atStuck_station]
        obtain h | h | h := hj <;> simp [h]
      obtain ⟨-, -, hte, hpeers, -⟩ := stationAtStuck_keeps hno
      rw [houtcome, hte, peerEntry_congr hpeers, ← hnow]
      exact hdue.peersTaken hd htaken x
    case leaving =>
      rw [stationAtStuck_of_leaving (by rwa [atStuck_station]), hflushed htaken _ hx, hnow]
    · rw [hnotices]
      exact htwo hyes

end Sys2Proof.Machine
end

section
/-! Frame ends (chapters 02 and 08): the report, the decision of the Receive Engine, and the answer. -/

namespace Sys2Proof.Machine

/-! ### The frame end (R7, R27, R128) -/

/-- The frame end has been reported, and FRAME-ERROR raised if the body failed (R27, R29). -/
def frameReported (h : Header) (s : State) : State :=
  if s.fu.deframer.bodyFailed then frameError .body (some h.source) (reportFrame (.header h .body none) s)
  else reportFrame (.header h .good s.fu.deframer.orderBody) s

theorem frameEnd_eq (h : Header) (s : State) :
    frameEnd h s = receiveDecision (!s.fu.deframer.bodyFailed) h (frameReported h s) := by
  by_cases hfailed : s.fu.deframer.bodyFailed = true
  · simp [frameEnd, frameReported, hfailed]
  · simp [frameEnd, frameReported, hfailed]

/-- The report of a frame end. -/
def frameEndReport (h : Header) (s : State) : FrameReport :=
  if s.fu.deframer.bodyFailed then .header h .body none else .header h .good s.fu.deframer.orderBody

theorem frameReported_report (h : Header) (s : State) : (frameReported h s).ac.tracker.access.report =
    if s.ac.tracker.access.following then frameEndReport h s else s.ac.tracker.access.report := by
  by_cases hfailed : s.fu.deframer.bodyFailed = true <;> simp [frameReported, frameEndReport, hfailed]

theorem frameReported_notices (h : Header) (s : State) : (frameReported h s).notices = if s.fu.deframer.bodyFailed
    then addNotice (underRead s) { kind := .frameError, subject := some h.source, detail := some .body } s.notices
    else s.notices := by
  have hreading : underRead (reportFrame (.header h .body none) s) = underRead s := underRead_congr (by simp)
  by_cases hfailed : s.fu.deframer.bodyFailed = true <;> simp [frameReported, hfailed, hreading]

theorem frameReported_keeps (h : Header) (s : State) : (frameReported h s).li = s.li ∧ (frameReported h s).fu = s.fu ∧
    (frameReported h s).re = s.re ∧ (frameReported h s).peers = s.peers ∧ (frameReported h s).freeBlocks = s.freeBlocks ∧
    (frameReported h s).ac.setup = s.ac.setup ∧ (frameReported h s).hp = s.hp := by
  by_cases hfailed : s.fu.deframer.bodyFailed = true <;> simp [frameReported, hfailed]

/-- The burst under way ends as a frame whose two end symbols the deframer has taken. -/
structure FrameEnds (s : State) (b : Burst) (h : Header) : Prop where
  mayEnd : BurstMayEnd s b
  whole : b.isPartial = false
  candidate : b.candidate = true
  phase : s.fu.deframer.phase = .tail
  tail : s.fu.deframer.tail = 2
  header : s.fu.deframer.header = some h

/-- What stands when the frame end has been reported, before the Receive Engine decides. -/
def atFrameEnd (b : Burst) (h : Header) (s : State) : State := frameReported h (quietAtLi b s)

theorem atFrameEnd_keeps (b : Burst) (h : Header) (s : State) :
    (atFrameEnd b h s).li.time = max s.li.time (b.start + b.length + 2) ∧ (atFrameEnd b h s).fu = s.fu ∧
      (atFrameEnd b h s).re = s.re ∧ (atFrameEnd b h s).peers = s.peers ∧ (atFrameEnd b h s).freeBlocks = s.freeBlocks ∧
      (atFrameEnd b h s).ac.setup = s.ac.setup ∧ underRead (atFrameEnd b h s) = underRead s ∧
      (atFrameEnd b h s).notices = if s.fu.deframer.bodyFailed
        then addNotice (underRead s) { kind := .frameError, subject := some h.source, detail := some .body } s.notices
        else s.notices := by
  obtain ⟨hli, hfu, hre, hpeers, hfree, hsetup, hhp⟩ := frameReported_keeps h (quietAtLi b s)
  exact ⟨by rw [atFrameEnd, hli]; simp [quietAtLi], hfu, hre, hpeers, hfree, hsetup, underRead_congr hhp,
    frameReported_notices h (quietAtLi b s)⟩

theorem candidateEnd_of_frame {s : State} {h : Header} (hphase : s.fu.deframer.phase = .tail)
    (htail : ¬s.fu.deframer.tail < 2) (hheader : s.fu.deframer.header = some h) :
    candidateEnd s = quietDeframer (frameEnd h s) := by
  rw [candidateEnd, hphase]
  simp only [if_neg htail, hheader]

theorem FrameEnds.candidateEnd {s : State} {b : Burst} {h : Header} (hf : FrameEnds s b h) :
    candidateEnd (quietAtLi b s) =
      quietDeframer (receiveDecision (!s.fu.deframer.bodyFailed) h (atFrameEnd b h s)) := by
  have htail : ¬(quietAtLi b s).fu.deframer.tail < 2 := by
    have hsame : (quietAtLi b s).fu.deframer.tail = 2 := hf.tail
    omega
  rw [candidateEnd_of_frame (s := quietAtLi b s) hf.phase htail hf.header, frameEnd_eq]
  rfl

/-- The quiet event of a frame leaves what the Receive Engine leaves, with the LI and the deframer QUIET. -/
theorem FrameEnds.quietEvent {s : State} {b : Burst} {h : Header} (hf : FrameEnds s b h) :
    let u := receiveDecision (!s.fu.deframer.bodyFailed) h (atFrameEnd b h s)
    ∃ t, exec (.quietEvent 0) s = .next t ∧ t.li.time = max s.li.time (b.start + b.length + 2) ∧
      t.fu.framer = u.fu.framer ∧ t.fu.deframer = Deframer.initial ∧ t.re = u.re ∧ t.freeBlocks = u.freeBlocks ∧
      t.peers = u.peers ∧ t.notices = u.notices ∧ t.te = s.te ∧ OrderKept s t ∧ HostSideKept s t ∧
      t.ac.tracker.access.report =
        if s.ac.tracker.access.following then frameEndReport h s else s.ac.tracker.access.report := by
  intro u
  have hpasses : (b.candidate && !b.isPartial) = true := by simp [hf.candidate, hf.whole]
  have hend : burstEnd b s = burstEndAtAc b (windowAtBurstEnd b (windowAnswer s) (quietDeframer u)) := by
    simp only [burstEnd, if_pos hpasses, hf.candidateEnd]
    rfl
  obtain ⟨hdeframer, hframer⟩ := windowAtBurstEnd_keeps b (windowAnswer s) (quietDeframer u)
  refine ⟨burstEnd b s, exec_quietEvent_of_mayEnd hf.mayEnd, by rw [burstEnd_li], ?_, ?_, ?_, ?_, ?_, ?_, by simp,
    (burstEnd_watches b s).order, by simp [HostSideKept], ?_⟩
  · rw [hend]
    simpa using hframer
  · rw [hend]
    simpa using hdeframer
  · rw [hend]
    simp
  · rw [hend]
    simp
  · rw [hend]
    simp
  · rw [hend]
    simp
  · have hac : u.ac = (atFrameEnd b h s).ac := by simp [u]
    have hreport := frameReported_report h (quietAtLi b s)
    rw [hend, burstEndAtAc_tracker]
    simp only [windowAtBurstEnd_frame, quietDeframer_frame, hac]
    exact hreport

/-! ### The decisions (R128 to R136) -/

theorem receiveDecision_of_direct {good : Bool} {f : FrameHeader} {s : State} (hsource : f.source ≠ s.ac.setup.address)
    (hkind : f.kind = .dataDirect) (hdest : f.destination = s.ac.setup.address) :
    receiveDecision good (.frame f) s = setStaging none (directDecision good f s) := by
  simp [receiveDecision, ownAddress, hsource, hkind, hdest]

theorem receiveDecision_of_probe {good : Bool} {f : FrameHeader} {s : State} (hsource : f.source ≠ s.ac.setup.address)
    (hkind : f.kind = .probe) (hdest : f.destination = s.ac.setup.address) :
    receiveDecision good (.frame f) s = setStaging none (probeDecision good f s) := by
  simp [receiveDecision, ownAddress, hsource, hkind, hdest]

theorem receiveDecision_of_broadcast {good : Bool} {f : FrameHeader} {s : State} (hsource : f.source ≠ s.ac.setup.address)
    (hkind : f.kind = .dataAll) : receiveDecision good (.frame f) s = setStaging none (broadcastDecision good f s) := by
  simp [receiveDecision, ownAddress, hsource, hkind]

/-- A frame that is not for this station, an own frame, an ORDER-RESET and an answer bring no decision (R128). -/
theorem receiveDecision_of_other {good : Bool} {h : Header} {s : State}
    (hother : ∀ f, h = .frame f → f.source = s.ac.setup.address ∨ f.kind = .orderReset ∨
      ((f.kind = .dataDirect ∨ f.kind = .probe) ∧ f.destination ≠ s.ac.setup.address)) :
    receiveDecision good h s = setStaging none s := by
  cases h with
  | answer a => rfl
  | frame f =>
    obtain h | h | ⟨h | h, hdest⟩ := hother f rfl
    · simp [receiveDecision, ownAddress, h]
    all_goals simp_all [receiveDecision, ownAddress]

/-- What storing a frame leaves (R130, R135). -/
theorem storeFrame_stores (kind : RecordKind) (f : FrameHeader) (s : State) :
    (storeFrame kind f s).re.ring = s.re.ring ++ [{
        source := f.source, kind := kind, sequence := if kind = .direct then some f.sequence else none, length := f.length
        missed := s.re.missed, payload := ((s.re.staging.map (·.bytes)).getD []).take f.length }] ∧
      (storeFrame kind f s).re.missed = 0 ∧ (storeFrame kind f s).freeBlocks = s.freeBlocks - (f.length + 31) / 32 := by
  simp [storeFrame, blocksFor]

/-- The answer code of a DATA-DIRECT, test by test (R129). -/
theorem directCode_eq (failed : Bool) (f : FrameHeader) (s : State) : directCode (!failed) f s =
    if failed then .checkFail else if (peerEntry s f.source).gate = .closed then .closed
    else if (peerEntry s f.source).lastAccepted = some f.sequence then .duplicate
    else if ¬(s.re.ring.length < 32 ∧ (f.length + 31) / 32 ≤ s.freeBlocks) then .full else .accepted := by
  have hroom : roomFor f.length s = true ↔ s.re.ring.length < 32 ∧ (f.length + 31) / 32 ≤ s.freeBlocks := roomFor_iff
  simp [directCode, ← hroom]

theorem directEffect_of_accepted (f : FrameHeader) (s : State) : directEffect .accepted f s =
    updatePeer f.source (fun e => { e with lastAccepted := some f.sequence }) (storeFrame .direct f s) := rfl

/-- A code that accepts nothing leaves the ring, the pool and the Peer Table; FULL is noticed (R129, R132). -/
theorem directEffect_of_refused {code : AnswerCode} (h : code ≠ .accepted) (f : FrameHeader) (s : State) :
    (directEffect code f s).re = s.re ∧ (directEffect code f s).freeBlocks = s.freeBlocks ∧
      (directEffect code f s).peers = s.peers ∧ (directEffect code f s).notices = if code = .full
        then addNotice (underRead s) { kind := .refusedFull, subject := some f.source, detail := none } s.notices
        else s.notices := by
  cases code with
  | accepted => exact absurd rfl h
  | _ => simp [directEffect]

theorem Deframer.isOrderReset_of_frame {d : Deframer} {f : FrameHeader} (h : d.header = some (.frame f)) :
    d.isOrderReset = (f.kind == .orderReset) := by
  rw [Deframer.isOrderReset, h]

theorem Deframer.isOrderReset_of_answer {d : Deframer} {a : AnswerHeader} (h : d.header = some (.answer a)) :
    d.isOrderReset = false := by
  rw [Deframer.isOrderReset, h]

/-- The report of a frame that carries no order body (R27). -/
theorem frameEndReport_of_noOrder {h : Header} {s : State} (horder : s.fu.deframer.isOrderReset = false) :
    frameEndReport h s = .header h (if s.fu.deframer.bodyFailed then .body else .good) none := by
  rw [frameEndReport, Deframer.orderBody, horder]
  cases s.fu.deframer.bodyFailed <;> rfl

/-- Settles O37: the report, the code, and what it does to the ring, the pool and the Peer Table. -/
theorem dataDirectDecision : Obligations.DataDirectDecision := by
  intro s b f hends hwhole hcandidate hphase htail hheader hkind hdest hsource p failed room code
  have hf : FrameEnds s b (.frame f) := ⟨hends, hwhole, hcandidate, hphase, htail, hheader⟩
  obtain ⟨hwtime, hwfu, hwre, hwpeers, hwfree, hwsetup, hwreading, hwnotices⟩ := atFrameEnd_keeps b (.frame f) s
  obtain ⟨t, hexec, htime, hframer, hdeframer, hre, hfree, hpeers, hnotices, hte, horder, hside, hreport⟩ := hf.quietEvent
  have hcode : directCode (!failed) f (atFrameEnd b (.frame f) s) = code := by
    rw [directCode_eq, peerEntry_congr hwpeers, hwre, hwfree]
  have hdecision : receiveDecision (!failed) (.frame f) (atFrameEnd b (.frame f) s) = setStaging none
      (answerDue f.source code f.sequence (directEffect code f (atFrameEnd b (.frame f) s))) := by
    rw [receiveDecision_of_direct (by rwa [hwsetup]) hkind (by rwa [hwsetup]), directDecision, hcode]
  have hstored := storeFrame_stores .direct f (atFrameEnd b (.frame f) s)
  obtain ⟨hring, hmissed, hblocks⟩ := hstored
  rw [hdecision] at hframer hre hfree hpeers hnotices
  simp only [setStaging_frame, setStaging_re, answerDue_frame] at hre hfree hpeers hnotices
  refine ⟨t, hexec, ?_, htime, hdeframer, by rw [hre], hte, horder, hside, ?_, fun haccepted => ?_, fun hrefused => ?_⟩
  · rw [hframer, htime, ← hwtime]
    simp [answerDue]
  · rw [hreport, frameEndReport_of_noOrder (by rw [Deframer.isOrderReset_of_frame hheader, hkind]; rfl)]
  · have hgood : failed = false := by
      by_contra hbad
      have hfail : code = .checkFail := if_pos (by simpa using hbad)
      rw [haccepted] at hfail
      cases hfail
    rw [haccepted, directEffect_of_accepted] at hre hfree hpeers hnotices
    refine ⟨?_, ?_, ?_, ?_, ?_⟩
    · rw [hre]
      simpa [hwre] using hring
    · rw [hre]
      simpa using hmissed
    · rw [hfree]
      simpa [hwfree] using hblocks
    · rw [hpeers]
      simp [updatePeer, peerEntry, hwpeers, p]
    · rw [hnotices]
      simpa [hgood] using hwnotices.trans (if_neg (by simp [show s.fu.deframer.bodyFailed = false from hgood]))
  · obtain ⟨hsre, hsfree, hspeers, hsnotices⟩ := directEffect_of_refused hrefused f (atFrameEnd b (.frame f) s)
    refine ⟨by rw [hre, hsre, hwre], by rw [hre, hsre, hwre], by rw [hfree, hsfree, hwfree], by rw [hpeers, hspeers, hwpeers], ?_⟩
    rw [hnotices, hsnotices, hwreading, hwnotices]
    by_cases hfailed : failed = true
    · have hfail : code = .checkFail := if_pos hfailed
      simp [hfail, show s.fu.deframer.bodyFailed = true from hfailed, Header.source]
    · have hno : code ≠ .checkFail := by
        simp only [code, hfailed]
        split_ifs <;> simp_all
      simp [hno, show s.fu.deframer.bodyFailed = false by simpa using hfailed]

end Sys2Proof.Machine
end

section
/-! The frame ends of a PROBE, a DATA-ALL and a frame that brings no decision (chapter 08), and the judgement of the answer
window (chapter 02). -/

namespace Sys2Proof.Machine

/-! ### PROBE and DATA-ALL (R134 to R136) -/

theorem probeDecision_of_good (f : FrameHeader) (s : State) :
    probeDecision true f s = answerDue f.source .present 0 s := rfl

theorem probeDecision_of_bad (f : FrameHeader) (s : State) : probeDecision false f s = s := rfl

theorem broadcastDecision_of_dropped {good : Bool} {f : FrameHeader} {s : State}
    (h : good = false ∨ (peerEntry s f.source).gate = .closed) : broadcastDecision good f s = s := by
  obtain h | h := h <;> simp [broadcastDecision, h]

theorem broadcastDecision_of_full {f : FrameHeader} {s : State} (hopen : (peerEntry s f.source).gate ≠ .closed)
    (hroom : roomFor f.length s = false) : broadcastDecision true f s = onRe (fun r => { r with missed := countUp r.missed }) s := by
  simp [broadcastDecision, hopen, hroom]

theorem broadcastDecision_of_room {f : FrameHeader} {s : State} (hopen : (peerEntry s f.source).gate ≠ .closed)
    (hroom : roomFor f.length s = true) : broadcastDecision true f s = storeFrame .all f s := by
  simp [broadcastDecision, hopen, hroom]

/-- The order body that the frame end of a header reports (R18, R27). -/
def Deframer.reportedOrder (d : Deframer) : Header → Option OrderResetBody
  | .frame f => if f.kind = .orderReset
      then some { roster := (d.bodyBytes.getD 0 0).toNat, restart := decide (d.bodyBytes.getD 1 0 = 1) } else none
  | .answer _ => none

theorem Deframer.orderBody_eq {d : Deframer} {h : Header} (hheader : d.header = some h) : d.orderBody = d.reportedOrder h := by
  rw [Deframer.orderBody]
  cases h with
  | answer a =>
    rw [Deframer.isOrderReset_of_answer hheader]
    rfl
  | frame f =>
    rw [Deframer.isOrderReset_of_frame hheader, Deframer.reportedOrder]
    exact if_congr beq_iff_eq rfl rfl

theorem frameEndReport_eq {h : Header} {s : State} (hheader : s.fu.deframer.header = some h) : frameEndReport h s =
    if s.fu.deframer.bodyFailed then .header h .body none else .header h .good (s.fu.deframer.reportedOrder h) := by
  rw [frameEndReport, Deframer.orderBody_eq hheader]

/-- Settles O38: the report, and the decision of each kind of frame. -/
theorem probeBroadcastAndOtherFrameEnds : Obligations.ProbeBroadcastAndOtherFrameEnds := by
  refine ⟨fun s b f hends hwhole hcandidate hphase htail hheader hkind hdest hsource => ?probe,
    fun s b f hends hwhole hcandidate hphase htail hheader hkind hsource => ?broadcast,
    fun s b h hends hwhole hcandidate hphase htail hheader hother => ?other⟩
  case probe =>
    have hf : FrameEnds s b (.frame f) := ⟨hends, hwhole, hcandidate, hphase, htail, hheader⟩
    obtain ⟨hwtime, hwfu, hwre, hwpeers, hwfree, hwsetup, -, hwnotices⟩ := atFrameEnd_keeps b (.frame f) s
    obtain ⟨t, hexec, htime, hframer, -, hre, hfree, hpeers, hnotices, hte, horder, hside, -⟩ := hf.quietEvent
    rw [receiveDecision_of_probe (by rwa [hwsetup]) hkind (by rwa [hwsetup])] at hframer hre hfree hpeers hnotices
    simp only [setStaging_frame, setStaging_re, probeDecision_frame] at hframer hre hfree hpeers hnotices
    refine ⟨t, hexec, by rw [hre, hwre], hfree.trans hwfree, hpeers.trans hwpeers, hte, horder, hside, fun hgood => ?_, fun hbad => ?_⟩
    · rw [hgood] at hframer hwnotices
      rw [hframer, htime, hnotices, hwnotices, ← hwtime]
      exact ⟨rfl, rfl⟩
    · rw [hbad] at hframer hwnotices
      rw [hframer, hnotices, hwnotices]
      exact ⟨congrArg FrameUnit.framer hwfu, rfl⟩
  case broadcast =>
    have hf : FrameEnds s b (.frame f) := ⟨hends, hwhole, hcandidate, hphase, htail, hheader⟩
    obtain ⟨-, hwfu, hwre, hwpeers, hwfree, hwsetup, -, hwnotices⟩ := atFrameEnd_keeps b (.frame f) s
    obtain ⟨t, hexec, -, hframer, -, hre, hfree, hpeers, hnotices, hte, horder, hside, -⟩ := hf.quietEvent
    rw [receiveDecision_of_broadcast (by rwa [hwsetup]) hkind] at hframer hre hfree hpeers hnotices
    simp only [setStaging_frame, setStaging_re, broadcastDecision_frame] at hframer hre hfree hpeers hnotices
    have hgate : (peerEntry (atFrameEnd b (.frame f) s) f.source).gate = (peerEntry s f.source).gate := by
      rw [peerEntry_congr hwpeers]
    have hroom : roomFor f.length (atFrameEnd b (.frame f) s) = true ↔
        s.re.ring.length < 32 ∧ (f.length + 31) / 32 ≤ s.freeBlocks := by
      rw [roomFor_iff, hwre, hwfree]
      rfl
    intro room dropped
    refine ⟨t, hexec, by rw [hframer, hwfu], hpeers.trans hwpeers, hte, by rw [hre], horder, hside, hnotices.trans hwnotices,
      fun hdropped => ?_, fun hkept hfull => ?_, fun hkept hfits => ?_⟩
    · rw [broadcastDecision_of_dropped (hdropped.imp (by simp) fun h => hgate.trans h)] at hre hfree
      rw [hre, hfree, hwre]
      exact ⟨rfl, rfl, hwfree⟩
    all_goals
      obtain ⟨hgood, hopen⟩ : s.fu.deframer.bodyFailed = false ∧ (peerEntry s f.source).gate ≠ .closed := by
        simpa [dropped, not_or] using hkept
      rw [← hgate] at hopen
      rw [hgood, Bool.not_false] at hre hfree
    · rw [broadcastDecision_of_full hopen (Bool.eq_false_iff.mpr (mt hroom.mp hfull))] at hre hfree
      rw [hre, hfree]
      simp [hwre, hwfree, countUp]
    · rw [broadcastDecision_of_room hopen (hroom.mpr hfits)] at hre hfree
      obtain ⟨hring, hmissed, hblocks⟩ := storeFrame_stores .all f (atFrameEnd b (.frame f) s)
      refine ⟨?_, ?_, ?_⟩
      · rw [hre]
        simpa [hwre] using hring
      · rw [hre]
        simpa using hmissed
      · rw [hfree, hblocks, hwfree]
  case other =>
    have hf : FrameEnds s b h := ⟨hends, hwhole, hcandidate, hphase, htail, hheader⟩
    obtain ⟨-, hwfu, hwre, hwpeers, hwfree, hwsetup, -, hwnotices⟩ := atFrameEnd_keeps b h s
    obtain ⟨t, hexec, -, hframer, hdeframer, hre, hfree, hpeers, hnotices, hte, horder, hside, hreport⟩ := hf.quietEvent
    rw [receiveDecision_of_other fun f hfr => by rw [hwsetup]; exact hother f hfr] at hframer hre hfree hpeers hnotices
    simp only [setStaging_frame, setStaging_re] at hframer hre hfree hpeers hnotices
    rw [frameEndReport_eq hheader] at hreport
    exact ⟨t, hexec, by rw [hframer, hwfu], hdeframer, by rw [hre, hwre], hfree.trans hwfree, hpeers.trans hwpeers, hte, horder,
      hside, hreport, hnotices.trans hwnotices⟩

/-! ### The answer window (R32) -/

theorem frameEnd_window (h : Header) (s : State) : (frameEnd h s).fu.window = s.fu.window := by
  obtain ⟨-, hfu, -⟩ := frameReported_keeps h s
  obtain ⟨u, hu, hdecision⟩ := receiveDecision_cases (!s.fu.deframer.bodyFailed) h (frameReported h s)
  rw [frameEnd_eq, hdecision, ← hfu]
  cases hu with
  | none => rfl
  | direct f => simp [directDecision, answerDue]
  | broadcast f => simp
  | probe f =>
    cases s.fu.deframer.bodyFailed
    · rfl
    · rfl

theorem candidateEnd_window (s : State) : (candidateEnd s).fu.window = s.fu.window := by
  obtain h | h | ⟨f, h⟩ := candidateEnd_cases s <;> rw [h]
  · rfl
  · simp
  · exact frameEnd_window f s

/-- The window is judged at the end of a foreign candidate by the answer that the deframer holds. -/
theorem burstEnd_window_of_candidate {b : Burst} {s : State} (hwhole : b.isPartial = false) (hcandidate : b.candidate = true) :
    WindowEnds b (windowAnswer s) s.fu.window (burstEnd b s).fu.window := by
  have hpasses : (b.candidate && !b.isPartial) = true := by simp [hcandidate, hwhole]
  have hwindow : (candidateEnd (quietAtLi b s)).fu.window = s.fu.window := candidateEnd_window _
  have hend : burstEnd b s = burstEndAtAc b (windowAtBurstEnd b (windowAnswer s) (candidateEnd (quietAtLi b s))) := by
    simp only [burstEnd, if_pos hpasses]
  rw [hend, (burstEndAtAc_frame b _).2.1, ← hwindow]
  exact windowAtBurstEnd_ends b _ _

/-- The code fits the kind of the own frame (R32). -/
theorem codeFits_iff {kind : FrameKind} {code : AnswerCode} : codeFits kind code = true ↔ (kind = .probe ↔ code = .present) := by
  by_cases hkind : kind = .probe
  · simp [codeFits, hkind]
  · simp [codeFits, hkind]

/-- What makes the frame that the deframer holds the answer to the open window (R32). -/
def AnswersWindow (s : State) (kind : FrameKind) (destination : Nat) (sequence : Seq) (a : AnswerHeader) : Prop :=
  (s.fu.deframer.phase = .tail ∧ s.fu.deframer.tail = 2 ∧ s.fu.deframer.bodyFailed = false) ∧
    a.source = destination ∧ a.destination = s.ac.setup.address ∧ a.echo = sequence ∧ (kind = .probe ↔ a.code = .present)

section Window
variable {s : State} {kind : FrameKind} {destination : Nat} {sequence : Seq} {armed : Bool}
  (hwindow : s.fu.window = .opened kind destination sequence armed)
include hwindow

theorem windowAnswer_of_answer {a : AnswerHeader} (hheader : s.fu.deframer.header = some (.answer a))
    (h : AnswersWindow s kind destination sequence a) : windowAnswer s = some a.code := by
  obtain ⟨⟨hphase, htail, hgood⟩, hsource, hdest, hecho, hfits⟩ := h
  simp only [windowAnswer, hwindow, hheader]
  exact if_pos (by simp [Deframer.endsGood, hphase, htail, hgood, hsource, hdest, hecho, codeFits_iff.mpr hfits, ownAddress])

theorem windowAnswer_of_other (h : ∀ a, s.fu.deframer.header = some (.answer a) → ¬AnswersWindow s kind destination sequence a) :
    windowAnswer s = none := by
  unfold windowAnswer
  split
  case h_1 k d q x a hopened hheader =>
    rw [hwindow] at hopened
    obtain ⟨rfl, rfl, rfl, rfl⟩ := Window.opened.inj hopened
    refine if_neg fun hall => h a hheader ?_
    simpa [Deframer.endsGood, AnswersWindow, codeFits_iff, ownAddress, and_assoc] using hall
  case h_2 => rfl

end Window

/-- Settles O40: the answer that the deframer holds is tested before the candidate ends. -/
theorem answerWindowIsJudged : Obligations.AnswerWindowIsJudged := by
  intro s b kind destination sequence hends hwhole hcandidate hforeign hwindow
  have hjudged := (burstEnd_window_of_candidate (s := s) hwhole hcandidate).judged hforeign hwhole kind destination sequence hwindow
  refine ⟨_, exec_quietEvent_of_mayEnd hends, fun a hphase htail hgood hheader hsource hdest hecho hfits => ?_, fun hother => ?_⟩
  · rw [hjudged, windowAnswer_of_answer hwindow hheader ⟨⟨hphase, htail, hgood⟩, hsource, hdest, hecho, hfits⟩]
  · refine hjudged.trans (congrArg _ (windowAnswer_of_other hwindow fun a hheader hanswers => ?_))
    obtain ⟨⟨hphase, htail, hgood⟩, hsource, hdest, hecho, hfits⟩ := hanswers
    obtain h | h | h | h := hother
    · exact h hphase
    · omega
    · simp [hgood] at h
    · obtain h | h | h | h := h a hheader
      · exact h hsource
      · exact h hdest
      · exact h hecho
      · exact h hfits

end Sys2Proof.Machine
end

section
/-! The deframer's readings (chapter 02): sync and the body check. -/

namespace Sys2Proof.Machine

/-! ### Readings of a candidate that is handed to the FU (R6) -/

theorem passReading_of_handed {b : Burst} {s : State} (h : HandedBurst s b) (r : Reading) :
    passReading r s = takeReading r (handReading s) := by
  rw [passReading, passHeld_of_none h, readingStep]

/-- A reading named by the event that it is due to bring (log 2). -/
theorem bringsEvent_reading {b : Burst} {s : State} (h : HandedBurst s b) {due : Reading → State → Bool} {r : Reading}
    (hdue : due r s = true) :
    (if bringsEvent due r s then passReading r s else s) = takeReading r (handReading s) := by
  rw [bringsEvent_of_handed h, if_pos hdue, passReading_of_handed h]

theorem takeReading_of_hunt {s : State} (h : s.fu.deframer.phase = .hunt) (r : Reading) : takeReading r s = takeHunt r s := by
  rw [takeReading, h]

theorem takeReading_of_header {s : State} (h : s.fu.deframer.phase = .header) (r : Reading) :
    takeReading r s = takeHeader r s := by
  rw [takeReading, h]

theorem takeReading_of_body {s : State} (h : s.fu.deframer.phase = .body) (r : Reading) : takeReading r s = takeBody r s := by
  rw [takeReading, h]

theorem takeReading_of_tail {s : State} (h : s.fu.deframer.phase = .tail) (r : Reading) : takeReading r s = takeTail r s := by
  rw [takeReading, h]

/-- What the hand-over of a reading leaves (R6). -/
theorem handReading_same (s : State) : (handReading s).fu = s.fu ∧ (handReading s).peers = s.peers ∧
    (handReading s).te = s.te ∧ (handReading s).re = s.re ∧ (handReading s).freeBlocks = s.freeBlocks ∧
    (handReading s).hp = s.hp ∧ (handReading s).notices = s.notices ∧ (handReading s).pending = s.pending ∧
    (handReading s).ac.tracker.access = s.ac.tracker.access ∧ (handReading s).ac.setup = s.ac.setup := by
  obtain ⟨-, haccess, hsetup, -, -⟩ := handReading_keeps s
  exact ⟨by simp, by simp, by simp, by simp, by simp, by simp, by simp, by simp, haccess, hsetup⟩

/-! ### HUNT (R24) -/

/-- The reading that completes the sync pattern opens the header. -/
theorem takeHunt_of_sync {s : State} {r : Reading} (h : (r :: s.fu.deframer.recent).take 16 = syncReadings) :
    takeHunt r s = onDeframer (fun d => { d with
      phase := .header, headerBytes := [], bits := [], headerCheck := 0xFF, recent := syncReadings, count := d.count + 1 }) s := by
  have hrecent : recentWith r s = syncReadings := h
  simp [takeHunt, hrecent, onDeframer, onFu]

/-- Reading 32 without the sync pattern. -/
theorem takeHunt_of_noSync {s : State} {r : Reading} (h : (r :: s.fu.deframer.recent).take 16 ≠ syncReadings)
    (hcount : s.fu.deframer.count = 31) :
    takeHunt r s = frameError .noSync none (reportFrame .headerInvalid (discardCandidate
      (onDeframer (fun d => { d with recent := recentWith r s, count := d.count + 1 }) s))) := by
  have hrecent : (recentWith r s == syncReadings) = false := by simpa [recentWith] using h
  simp [takeHunt, hrecent, hcount]

/-! ### BODY (R26) -/

theorem Deframer.payloadLength_of_frame {d : Deframer} {f : FrameHeader} (h : d.header = some (.frame f)) :
    d.payloadLength = f.length := by
  rw [Deframer.payloadLength, h]
  rfl

theorem readingBit_ofBit (y : Bool) (s : State) : readingBit (Reading.ofBit y) s = y := by
  cases y <;> rfl

/-- The deframer once the last byte of a body has been taken (R26). -/
def Deframer.closeBody (last : Byte) (bad : Bool) (d : Deframer) : Deframer :=
  let d := { d with bits := [], bodyBytes := d.bodyBytes ++ [last], expected := 0, bodyFailed := d.bodyFailed || bad }
  { d with phase := .tail, tail := 0, bodyFailed := d.bodyFailed || d.checkDiffers || d.badIndicator }

/-- The last reading of a body: the last check byte is complete, and the check is compared (R26). -/
theorem takeBody_of_last {s : State} {f : FrameHeader} (r : Reading) (hexpected : s.fu.deframer.expected = 1)
    (hbits : s.fu.deframer.bits.length = 7) (hheader : s.fu.deframer.header = some (.frame f))
    (hbytes : s.fu.deframer.bodyBytes.length = f.length + 1) :
    (takeBody r s).fu.deframer =
        s.fu.deframer.closeBody (byteOfBits (s.fu.deframer.bits ++ [readingBit r s])) (r == .bad) ∧
      (takeBody r s).re = s.re := by
  have hno : ¬f.length + 1 < f.length := by omega
  cases r <;>
  simp [takeBody, takeBodyByte, bodyComplete, hbits, hexpected, hheader, hbytes, hno, Deframer.closeBody, Deframer.payloadLength,
    Header.payloadLength]

/-- Why the body of a frame fails at its last reading (R18, R26). -/
theorem Deframer.closeBody_failed {d : Deframer} {f : FrameHeader} (last : Byte) (bad : Bool)
    (hheader : d.header = some (.frame f)) (hbytes : d.bodyBytes.length = f.length + 1) :
    let received := wordOfBytes last (d.bodyBytes.getD f.length 0)
    let indicator := (d.bodyBytes ++ [last]).getD 1 0
    (d.closeBody last bad).bodyFailed = true ↔ d.bodyFailed = true ∨ bad = true ∨ received ≠ d.bodyCheck ∨
      (f.kind = .orderReset ∧ indicator ≠ 0 ∧ indicator ≠ 1) := by
  intro received indicator
  let closed : Deframer := { d with bits := [], bodyBytes := d.bodyBytes ++ [last], expected := 0, bodyFailed := d.bodyFailed || bad }
  have hlength : closed.payloadLength = f.length := Deframer.payloadLength_of_frame hheader
  have hlow : closed.bodyBytes.getD f.length 0 = d.bodyBytes.getD f.length 0 := by
    simp [closed, hbytes]
  have hhigh : closed.bodyBytes.getD (f.length + 1) 0 = last := by
    simp [closed, ← hbytes]
  have hdiffers : closed.checkDiffers = true ↔ received ≠ d.bodyCheck := by
    rw [Deframer.checkDiffers, hlength, hlow, hhigh, bne_iff_ne]
  have hindicator : closed.badIndicator = true ↔ f.kind = .orderReset ∧ indicator ≠ 0 ∧ indicator ≠ 1 := by
    rw [Deframer.badIndicator, Deframer.isOrderReset_of_frame (d := closed) hheader]
    simp only [Bool.and_eq_true, bne_iff_ne, beq_iff_eq, and_assoc]
    rfl
  have hall : (d.closeBody last bad).bodyFailed =
      ((d.bodyFailed || bad) || closed.checkDiffers || closed.badIndicator) := rfl
  rw [hall, Bool.or_eq_true, Bool.or_eq_true, Bool.or_eq_true, hdiffers, hindicator, or_assoc, or_assoc]

/-! ### The readings that bring an event (R24, R26) -/

theorem exec_syncFound_of_handed {b : Burst} {s : State} (h : HandedBurst s b) (hphase : s.fu.deframer.phase = .hunt)
    (hsync : (Reading.zero :: s.fu.deframer.recent).take 16 = syncReadings) :
    exec .syncFound s = .next (takeHunt .zero (handReading s)) := by
  have hdue : syncDue .zero s = true := by simp [syncDue, hphase, recentWith, hsync]
  have hfu := (handReading_same s).1
  exact congrArg Host.Outcome.next ((bringsEvent_reading h hdue).trans (takeReading_of_hunt (by rw [hfu, hphase]) _))

theorem exec_noSync_of_handed {b : Burst} {s : State} (h : HandedBurst s b) (hphase : s.fu.deframer.phase = .hunt) {r : Reading}
    (hno : (r :: s.fu.deframer.recent).take 16 ≠ syncReadings) (hcount : s.fu.deframer.count = 31) :
    exec (.noSync r) s = .next (takeHunt r (handReading s)) := by
  have hdue : noSyncDue r s = true := by simpa [noSyncDue, hphase, recentWith, hcount] using hno
  have hfu := (handReading_same s).1
  exact congrArg Host.Outcome.next ((bringsEvent_reading h hdue).trans (takeReading_of_hunt (by rw [hfu, hphase]) _))

theorem exec_bodyCheckTaken_of_handed {b : Burst} {s : State} (h : HandedBurst s b) (hphase : s.fu.deframer.phase = .body)
    (hexpected : s.fu.deframer.expected = 1) (r : Reading) :
    exec (.bodyCheckTaken r) s = .next (takeBody r (handReading s)) := by
  have hdue : bodyDue s = true := by simp [bodyDue, hphase, hexpected]
  have hfu := (handReading_same s).1
  exact congrArg Host.Outcome.next ((bringsEvent_reading (due := fun _ => bodyDue) h hdue).trans
    (takeReading_of_body (by rw [hfu, hphase]) _))

/-- Settles O32: the reading is handed over, and then it completes the sync pattern, ends the search or closes the body. -/
theorem syncAndBodyCheckMoveDeframer : Obligations.SyncAndBodyCheckMoveDeframer := by
  refine ⟨fun s b h hphase => ⟨fun hsync => ?sync, fun r hno hcount => ?noSync⟩,
    fun r s b f h hphase hexpected hbits hheader hbytes => ?body⟩
  all_goals
    obtain ⟨hfu, hpeers, hte, hre, hfree, hhp, hnotices, hpending, haccess, hsetup⟩ := handReading_same s
  case sync =>
    refine ⟨_, exec_syncFound_of_handed h hphase hsync, ?_⟩
    rw [takeHunt_of_sync (by rwa [hfu])]
    exact ⟨by simp [onDeframer], by simp, by simp, by simp, by simp,
      by simp, by simp, by simp⟩
  case noSync =>
    refine ⟨_, exec_noSync_of_handed h hphase hno hcount, ?_⟩
    rw [takeHunt_of_noSync (by rwa [hfu]) (by rwa [hfu])]
    refine ⟨by simp, by simp [onDeframer], by simp [onDeframer], by simp [haccess], ?_, by simp,
      by simp, by simp, by simp, by simp, by simp⟩
    rw [frameError_notices, underRead_congr (s := s) (by simp)]
    simp
  case body =>
    intro d
    have hclosed := takeBody_of_last (s := handReading s) r (by rwa [hfu]) (by rwa [hfu]) (by rwa [hfu]) (by rwa [hfu])
    obtain ⟨hdeframer, hre'⟩ := hclosed
    rw [hfu] at hdeframer
    refine ⟨readingBit r (handReading s), _, fun y hy => by rw [hy, readingBit_ofBit],
      exec_bodyCheckTaken_of_handed h hphase hexpected r, by rw [hdeframer]; rfl, by rw [hdeframer]; rfl, ?_, by rw [hre', hre],
      by simp, by simp, by simp, by simp, by simp,
      by simp⟩
    rw [hdeframer]
    simpa using Deframer.closeBody_failed (byteOfBits (d.bits ++ [readingBit r (handReading s)])) (r == .bad) hheader hbytes

end Sys2Proof.Machine
end

section
/-! The judgement of a header (chapter 02). -/

namespace Sys2Proof.Machine

/-! ### The last header byte (R23, R25) -/

/-- The kind byte fixes how many header bytes there are. -/
theorem headerLength_append {bytes : List Byte} (h : bytes ≠ []) (b : Byte) : headerLength (bytes ++ [b]) = headerLength bytes := by
  rw [headerLength, headerLength, List.head?_append_of_ne_nil bytes h]

theorem takeHeader_ofBit (x : Bool) (s : State) : takeHeader (Reading.ofBit x) s = takeHeaderBit x s := by
  cases x <;> rfl

theorem takeHeaderBit_of_last {x : Bool} {s : State} (h : s.fu.deframer.bits.length = 7) :
    takeHeaderBit x s = takeHeaderByte (byteOfBits (s.fu.deframer.bits ++ [x])) s :=
  if_pos (by simp [h])

/-- The deframer with all the bytes of a header, before they are judged. -/
def Deframer.withHeader (bytes : List Byte) (d : Deframer) : Deframer := { d with headerBytes := bytes, bits := [] }

section LastByte
variable {b : Byte} {s : State} (hlast : (s.fu.deframer.headerBytes ++ [b]).length = headerLength (s.fu.deframer.headerBytes ++ [b]))
include hlast

theorem takeHeaderByte_of_invalid
    (h : judgeHeader s.ac.setup.roster (s.fu.deframer.headerBytes ++ [b]) s.fu.deframer.headerCheck = none) :
    takeHeaderByte b s = headerError (onDeframer (Deframer.withHeader (s.fu.deframer.headerBytes ++ [b])) s) := by
  refine (if_pos hlast).trans ?_
  split
  case h_1 found heq => exact absurd (heq.symm.trans h) (by simp)
  case h_2 => rfl

theorem takeHeaderByte_of_valid {found : Header}
    (h : judgeHeader s.ac.setup.roster (s.fu.deframer.headerBytes ++ [b]) s.fu.deframer.headerCheck = some found) :
    takeHeaderByte b s = headerValid found (onDeframer (Deframer.withHeader (s.fu.deframer.headerBytes ++ [b])) s) := by
  refine (if_pos hlast).trans ?_
  split
  case h_1 other heq =>
    obtain rfl : other = found := Option.some.inj (heq.symm.trans h)
    rfl
  case h_2 heq => exact absurd (heq.symm.trans h) (by simp)

end LastByte

/-! ### What the judgement brings (R25, R29, R90, R127) -/

theorem headerError_keeps (s : State) : (headerError s).fu.deframer.phase = .discard ∧
    (headerError s).ac.tracker.access.report =
      (if s.ac.tracker.access.following then .headerInvalid else s.ac.tracker.access.report) ∧
    (headerError s).notices =
      addNotice (underRead s) { kind := .frameError, subject := none, detail := some .header } s.notices := by
  have hreading : underRead (reportFrame .headerInvalid (discardCandidate s)) = underRead s := underRead_congr (by simp)
  simp [headerError, hreading]

theorem updatePeer_peers (a : Nat) (f : PeerEntry → PeerEntry) (s : State) :
    (updatePeer a f s).peers = s.peers.setIfInBounds a (f (peerEntry s a)) := rfl

/-- What a valid header does to the peer it came from (R90). -/
theorem peerHeard_keeps (a : Nat) (s : State) :
    (peerHeard a s).peers = s.peers.setIfInBounds a { peerEntry s a with presence := .present, unanswered := 0 } ∧
      (peerHeard a s).notices = if (peerEntry s a).presence = .silent
        then addNotice (underRead s) { kind := .peerBack, subject := some a, detail := none } s.notices else s.notices := by
  let u := updatePeer a (fun e => { e with presence := .present, unanswered := 0 }) s
  by_cases hsilent : (peerEntry s a).presence = .silent
  · have hback : peerHeard a s = raise .peerBack (some a) none u := if_pos (by simp [hsilent])
    have hreading : underRead u = underRead s := underRead_congr (by simp [u])
    rw [hback, if_pos hsilent]
    exact ⟨by simp [u, updatePeer_peers], by simp [u, hreading]⟩
  · have hpresent : peerHeard a s = u := if_neg (by simp [hsilent])
    rw [hpresent, if_neg hsilent]
    exact ⟨updatePeer_peers a _ s, by simp [u]⟩

theorem openStaging_of_some {h : Header} {s : State} {g : Staging} (hg : stagingFor (ownAddress s) h = some g) :
    openStaging h s = setStaging (some g) s := by
  simp [openStaging, hg]

theorem openStaging_of_none {h : Header} {s : State} (hg : stagingFor (ownAddress s) h = none) : openStaging h s = s := by
  simp [openStaging, hg]

theorem openStaging_re (h : Header) (s : State) : (openStaging h s).re.ring = s.re.ring ∧ (openStaging h s).re.missed = s.re.missed := by
  cases hg : stagingFor (ownAddress s) h with
  | none => simp [openStaging_of_none hg]
  | some g => simp [openStaging_of_some hg]

/-- The DATA frames for this station open the staging buffer (R127). -/
theorem stagingFor_of_data {own : Nat} {f : FrameHeader} (hsource : f.source ≠ own)
    (hkind : f.kind = .dataAll ∨ (f.kind = .dataDirect ∧ f.destination = own)) : stagingFor own (.frame f) =
      some { source := f.source, kind := if f.kind = .dataAll then .all else .direct, sequence := f.sequence,
             length := f.length, bytes := [] } := by
  obtain hkind | ⟨hkind, hdest⟩ := hkind
  · simp [stagingFor, hsource, hkind]
  · simp [stagingFor, hsource, hkind, hdest]

theorem stagingFor_of_other {own : Nat} {h : Header} (hother : ∀ f, h = .frame f → f.source = own ∨ f.kind = .probe ∨
    f.kind = .orderReset ∨ (f.kind = .dataDirect ∧ f.destination ≠ own)) : stagingFor own h = none := by
  cases h with
  | answer a => rfl
  | frame f =>
    obtain h | h | h | ⟨h, hdest⟩ := hother f rfl
    · simp [stagingFor, h]
    · simp [stagingFor, h]
    · simp [stagingFor, h]
    · simp [stagingFor, h, hdest]

/-- What stands when a valid header has been taken, before it opens the staging buffer. -/
def headerHeard (h : Header) (s : State) : State :=
  let s := reportFrame (.header h .awaited none) (onDeframer (Deframer.enterBody h) s)
  if h.source = ownAddress s then s else peerHeard h.source s

theorem headerValid_eq (h : Header) (s : State) : headerValid h s = openStaging h (headerHeard h s) := rfl

theorem headerHeard_keeps (h : Header) (s : State) : (headerHeard h s).fu.deframer = s.fu.deframer.enterBody h ∧
    (headerHeard h s).ac.setup = s.ac.setup ∧ (headerHeard h s).re = s.re ∧
    (headerHeard h s).ac.tracker.access.report =
      (if s.ac.tracker.access.following then .header h .awaited none else s.ac.tracker.access.report) := by
  let v := reportFrame (.header h .awaited none) (onDeframer (Deframer.enterBody h) s)
  obtain ⟨hfu, hac, hre⟩ : (headerHeard h s).fu = v.fu ∧ (headerHeard h s).ac = v.ac ∧ (headerHeard h s).re = v.re := by
    by_cases hown : h.source = ownAddress v
    · rw [show headerHeard h s = v from if_pos hown]
      exact ⟨rfl, rfl, rfl⟩
    · rw [show headerHeard h s = peerHeard h.source v from if_neg hown]
      simp
  rw [hfu, hac, hre]
  exact ⟨rfl, rfl, rfl, rfl⟩

theorem headerHeard_of_own {h : Header} {s : State} (hsource : h.source = s.ac.setup.address) :
    (headerHeard h s).peers = s.peers ∧ (headerHeard h s).notices = s.notices := by
  have hown : h.source = ownAddress (reportFrame (.header h .awaited none) (onDeframer (Deframer.enterBody h) s)) := hsource
  simp [headerHeard, if_pos hown]

theorem headerHeard_of_foreign {h : Header} {s : State} (hsource : h.source ≠ s.ac.setup.address) :
    (headerHeard h s).peers = s.peers.setIfInBounds h.source { peerEntry s h.source with presence := .present, unanswered := 0 } ∧
      (headerHeard h s).notices = if (peerEntry s h.source).presence = .silent
        then addNotice (underRead s) { kind := .peerBack, subject := some h.source, detail := none } s.notices
        else s.notices := by
  have hown : ¬h.source = ownAddress (reportFrame (.header h .awaited none) (onDeframer (Deframer.enterBody h) s)) := hsource
  have heq : headerHeard h s = peerHeard h.source (reportFrame (.header h .awaited none) (onDeframer (Deframer.enterBody h) s)) :=
    if_neg hown
  rw [heq]
  exact peerHeard_keeps h.source _

/-! ### The judgement (R25) -/

theorem exec_headerJudged_of_due {b : Burst} {s : State} (h : HandedBurst s b) (hphase : s.fu.deframer.phase = .header)
    {r : Reading} (hdue : headerDue r s = true) : exec (.headerJudged r) s = .next (takeHeader r (handReading s)) := by
  have hfu := (handReading_same s).1
  exact congrArg Host.Outcome.next ((bringsEvent_reading h hdue).trans (takeReading_of_header (by rw [hfu, hphase]) _))

/-- Settles O33: a bad reading, and the last bit of the last byte, which is judged. -/
theorem headerIsJudged : Obligations.HeaderIsJudged := by
  intro s b h hphase d headerError
  obtain ⟨hfu, hpeers, hte, hre, hfree, hhp, hnotices, hpending, haccess, hsetup⟩ := handReading_same s
  have hread : underRead (handReading s) = underRead s := underRead_congr hhp
  refine ⟨?bad, fun x hbits hlast hnonempty => ?judged⟩
  case bad =>
    obtain ⟨hdiscard, hreport, hnotice⟩ := headerError_keeps (handReading s)
    rw [haccess] at hreport
    rw [hread, hnotices] at hnotice
    exact ⟨_, exec_headerJudged_of_due h hphase (by simp [headerDue, hphase]), hdiscard, hreport, hnotice, by simp [takeHeader],
      by simp [takeHeader], by simp, by simp, by simp, by simp⟩
  case judged =>
    intro bytes
    have hdue : headerDue (Reading.ofBit x) s = true := by 
      simp [headerDue, hphase, show s.fu.deframer.bits.length = 7 from hbits,
        show s.fu.deframer.headerBytes.length + 1 = headerLength s.fu.deframer.headerBytes from hlast]
    have htake : takeHeader (Reading.ofBit x) (handReading s) =
        takeHeaderByte (byteOfBits (d.bits ++ [x])) (handReading s) := by
      rw [takeHeader_ofBit, takeHeaderBit_of_last (by rwa [hfu]), hfu]
    have hwhole : ((handReading s).fu.deframer.headerBytes ++ [byteOfBits (d.bits ++ [x])]).length =
        headerLength ((handReading s).fu.deframer.headerBytes ++ [byteOfBits (d.bits ++ [x])]) := by
      rw [hfu, headerLength_append hnonempty, ← hlast, List.length_append, List.length_singleton]
    have hexec := exec_headerJudged_of_due h hphase hdue
    rw [htake] at hexec
    let v := onDeframer (Deframer.withHeader bytes) (handReading s)
    cases hjudge : judgeHeader s.ac.setup.roster bytes d.headerCheck with
    | none =>
      have herror := takeHeaderByte_of_invalid hwhole (by rwa [hfu, hsetup])
      rw [hfu] at herror
      obtain ⟨hdiscard, hreport, hnotice⟩ := headerError_keeps v
      have hvread : underRead v = underRead s := underRead_congr (by simp [v])
      rw [herror] at hexec
      refine ⟨_, hexec, by simp, by simp, by simp, by simp, by simp, by simp, fun _ => ⟨hdiscard, ?_, by simp, by simp, ?_⟩, nofun⟩
      · simpa [hvread, v] using hnotice
      · simpa [v, haccess] using hreport
    | some found =>
      have hvalid := takeHeaderByte_of_valid hwhole (by rwa [hfu, hsetup])
      rw [hfu] at hvalid
      rw [hvalid] at hexec
      obtain ⟨hdeframer, hsetup', hre', hreport⟩ := headerHeard_keeps found v
      obtain ⟨hring, hmissed⟩ := openStaging_re found (headerHeard found v)
      have hopen : headerValid found v = openStaging found (headerHeard found v) := headerValid_eq found v
      have hsame : v.ac.setup = s.ac.setup := by simp [v, hsetup]
      have haddress : ownAddress (headerHeard found v) = s.ac.setup.address := by rw [ownAddress, hsetup', hsame]
      have hvread : underRead v = underRead s := underRead_congr (by simp [v])
      have hvpeers : v.peers = s.peers := by simp [v]
      have hvnotices : v.notices = s.notices := by simp [v]
      refine ⟨_, hexec, by simp, by simp, by simp, by simp, ?ring, ?missed, nofun, fun h heq => ?_⟩
      case ring =>
        rw [hopen, hring, hre']
        simp [v]
      case missed =>
        rw [hopen, hmissed, hre']
        simp [v]
      obtain rfl : found = h := Option.some.inj heq
      have hfu' : (openStaging found (headerHeard found v)).fu.deframer = v.fu.deframer.enterBody found := by simpa using hdeframer
      rw [hopen, hfu']
      refine ⟨rfl, rfl, ?_, rfl, rfl, ?_, fun hsource => ?_, fun hsource => ?_, fun f hf hsource hkind => ?_, fun hother => ?_⟩
      · by_cases hempty : found.payloadLength = 0 <;> simp [Deframer.enterBody, Header.bodySymbols, hempty]
      · simpa [v, haccess] using hreport
      · obtain ⟨hp, hn⟩ := headerHeard_of_own (hsource.trans (by rw [hsame]))
        exact ⟨by simpa using hp.trans hvpeers, by simpa using hn.trans hvnotices⟩
      · obtain ⟨hp, hn⟩ := headerHeard_of_foreign (h := found) (s := v) (by rwa [hsame])
        rw [peerEntry_congr hvpeers, hvpeers] at hp
        rw [peerEntry_congr hvpeers, hvread, hvnotices] at hn
        exact ⟨by simpa using hp, by simpa using hn⟩
      · have hg := stagingFor_of_data hsource hkind
        rw [← hf, ← haddress] at hg
        rw [openStaging_of_some hg]
        rfl
      · have hg := stagingFor_of_other (h := found) hother
        rw [← haddress] at hg
        rw [openStaging_of_none hg, hre']
        simp [v]

end Sys2Proof.Machine
end

section
/-! Overrun and truncation (chapter 02). -/

namespace Sys2Proof.Machine

/-! ### The overrun (R27) -/

theorem takeTail_of_overrun {s : State} (h : 2 ≤ s.fu.deframer.tail) (r : Reading) : takeTail r s = takeOverrun s := if_pos h

theorem exec_overrun_of_due {b : Burst} {s : State} (h : HandedBurst s b) (hphase : s.fu.deframer.phase = .tail)
    (htail : 2 ≤ s.fu.deframer.tail) (r : Reading) : exec (.overrun r) s = .next (takeOverrun (handReading s)) := by
  have hdue : overrunDue s = true := by simp [overrunDue, hphase, htail]
  have hfu := (handReading_same s).1
  exact congrArg Host.Outcome.next (((bringsEvent_reading (due := fun _ => overrunDue) h hdue).trans
    (takeReading_of_tail (by rw [hfu, hphase]) _)).trans (takeTail_of_overrun (by rwa [hfu]) r))

/-- While the line is driven a reading touches the LI only, before the deframer takes it. -/
theorem handReading_ac {s : State} (h : s.li.sensing ≠ .quiet) : (handReading s).ac = s.ac := by
  simp only [handReading, burstTo, passTime]
  split <;> simp_all [passDriven]

theorem handReading_order (s : State) : OrderKept s (handReading s) :=
  OrderKept.trans (t := onLi (fun l => { l with burst := l.burst.map fun b => { b with handed := b.handed + 1 } }) s)
    (.of_eq rfl) (passTime_watches _ _).order

/-- A reading leaves the own marking of the burst (R5, R6). -/
theorem handReading_isOwn {b : Burst} {s : State} (h : s.li.burst = some b) :
    (handReading s).li.burst.map (·.isOwn) = some b.isOwn := by
  let v := onLi (fun l => { l with burst := l.burst.map fun b => { b with handed := b.handed + 1 } }) s
  have hv : v.li.burst = some { b with handed := b.handed + 1 } := by simp [v, h]
  obtain ⟨b', hb', -, -, hown⟩ := passTime_burst ((v.li.burst.map (·.handed)).getD 0 - (v.li.burst.map (·.length)).getD
    ((v.li.burst.map (·.handed)).getD 0)) hv
  have hhand : (handReading s).li.burst = some b' := hb'
  rw [hhand, Option.map_some, hown]

/-- What an overrun leaves, but for the answer window. -/
theorem takeOverrun_keeps {s : State} {h : Header} (hheader : s.fu.deframer.header = some h) :
    (takeOverrun s).fu.deframer.phase = .discard ∧ (takeOverrun s).fu.framer = s.fu.framer ∧
      (takeOverrun s).ac = { s.ac with tracker := { s.ac.tracker with access := { s.ac.tracker.access with
        report := if s.ac.tracker.access.following then .header h .body none else s.ac.tracker.access.report } } } ∧
      (takeOverrun s).notices = addNotice (underRead s)
        { kind := .frameError, subject := some h.source, detail := some .body } s.notices ∧
      (takeOverrun s).re = { s.re with staging := none } := by
  have hsource : deframedSource s = some h.source := by simp [deframedSource, hheader]
  have hframer (u : State) : (judgeWindow none u).fu.framer = u.fu.framer := by
    unfold judgeWindow
    split <;> simp
  have hreading (u : State) (hu : u.hp = s.hp) : underRead u = underRead s := underRead_congr hu
  by_cases hanswer : (s.fu.deframer.isAnswer && windowListens s) = true
  · simp [takeOverrun, hheader, hsource, hanswer, hframer, hreading]
  · simp [takeOverrun, hheader, hsource, hanswer, hreading]

/-- An ANSWER that overruns reaches the answer window as a BODY end (R27). -/
theorem takeOverrun_window {s : State} {a : AnswerHeader} {k : FrameKind} {w : Nat} {q : Seq}
    (hheader : s.fu.deframer.header = some (.answer a)) (hwindow : s.fu.window = .opened k w q true)
    (hforeign : s.li.burst.map (·.isOwn) = some false) : (takeOverrun s).fu.window = .judged k w q none := by
  have hanswer : s.fu.deframer.isAnswer = true := by rw [Deframer.isAnswer, hheader]
  have hlistens : windowListens s = true := by
    rw [windowListens, hwindow]
    simp [hforeign]
  simp [takeOverrun, hheader, hanswer, hlistens, judgeWindow, hwindow]

/-! ### The truncation (R24 to R26) -/

/-- The deframer is still short of the second end symbol (R24 to R26). -/
def CutShort (s : State) : Prop := s.fu.deframer.phase = .hunt ∨ s.fu.deframer.phase = .header ∨ s.fu.deframer.phase = .body ∨
  (s.fu.deframer.phase = .tail ∧ s.fu.deframer.tail < 2)

theorem candidateEnd_of_cutShort {s : State} (h : CutShort s) : candidateEnd s = quietDeframer (truncatedEnd s) := by
  obtain h | h | h | ⟨h, htail⟩ := h
  · rw [candidateEnd, h]
  · rw [candidateEnd, h]
  · rw [candidateEnd, h]
  · rw [candidateEnd, h]
    exact congrArg quietDeframer (if_pos htail)

/-- The report of a truncated frame: with its header, once that is known (R24 to R26). -/
def truncatedReport (s : State) : FrameReport :=
  match s.fu.deframer.header with
  | some h => .header h .truncated none
  | none => .truncated

theorem truncatedEnd_keeps (s : State) : (truncatedEnd s).ac.tracker.access.report =
      (if s.ac.tracker.access.following then truncatedReport s else s.ac.tracker.access.report) ∧
    (truncatedEnd s).notices = addNotice (underRead s)
      { kind := .frameError, subject := s.fu.deframer.header.map (·.source), detail := some .truncated } s.notices ∧
    (truncatedEnd s).re = { s.re with staging := none } := by
  have hreading (u : State) (hu : u.hp = s.hp) : underRead u = underRead s := underRead_congr hu
  cases hheader : s.fu.deframer.header with
  | none => simp [truncatedEnd, truncatedReport, deframedSource, hheader, hreading]
  | some h => simp [truncatedEnd, truncatedReport, deframedSource, hheader, hreading]

/-- Settles O34: the reading after the second end symbol, and the quiet event that comes before it. -/
theorem overrunAndTruncationAreReported : Obligations.OverrunAndTruncationAreReported := by
  refine ⟨fun r s b h hb hphase htail hheader => ?overrun, fun s b hends hwhole hcandidate hshort => ?truncation⟩
  case overrun =>
    obtain ⟨hfu, hpeers, hte, hre, hfree, hhp, hnotices, hpending, haccess, hsetup⟩ := handReading_same s
    have hread : underRead (handReading s) = underRead s := underRead_congr hhp
    obtain ⟨hdiscard, hframer, hac, hnotice, hre'⟩ := takeOverrun_keeps (s := handReading s) (by rwa [hfu])
    have hreported : OrderKept (handReading s) (takeOverrun (handReading s)) := by
      rw [orderKept_iff, hac]
      exact ⟨rfl, rfl, rfl, rfl, rfl⟩
    have horder : OrderKept s (takeOverrun (handReading s)) := (handReading_order s).trans hreported
    refine ⟨_, exec_overrun_of_due hb hphase htail r, hdiscard, by rw [hframer, hfu], horder, fun hdriven => ?_,
      by rw [hnotice, hread, hnotices], by rw [hre', hre], by simp, by simp, by simp, by simp, by simp,
      fun a k q w hanswer hwindow hforeign => ?_⟩
    · rw [hac, handReading_ac hdriven]
    · refine takeOverrun_window (a := a) (by rw [hfu, hheader, hanswer]) (by rw [hfu, hwindow]) ?_
      rw [handReading_isOwn hb.1, hforeign]
  case truncation =>
    have hpasses : (b.candidate && !b.isPartial) = true := by simp [hcandidate, hwhole]
    obtain ⟨hreport, hnotice, hre⟩ := truncatedEnd_keeps (quietAtLi b s)
    have hend : burstEnd b s = burstEndAtAc b (windowAtBurstEnd b (windowAnswer s)
        (quietDeframer (truncatedEnd (quietAtLi b s)))) := by
      simp only [burstEnd, if_pos hpasses, candidateEnd_of_cutShort (s := quietAtLi b s) hshort]
    obtain ⟨hdeframer, hframer⟩ := windowAtBurstEnd_keeps b (windowAnswer s) (quietDeframer (truncatedEnd (quietAtLi b s)))
    refine ⟨_, exec_quietEvent_of_mayEnd hends, by rw [burstEnd_li], by rw [burstEnd_li], ?_, ?_, ?_, ?_, ?_, by simp, ?_, ?_,
      (burstEnd_watches b s).order, by simp [HostSideKept]⟩
    · rw [hend, (burstEndAtAc_frame b _).2.1, hdeframer]
      rfl
    · rw [hend]
      simpa using hframer
    · rw [hend, burstEndAtAc_tracker]
      simp only [windowAtBurstEnd_frame, quietDeframer_frame]
      exact hreport
    · have hread : underRead (quietAtLi b s) = underRead s := underRead_congr rfl
      rw [hread] at hnotice
      rw [hend]
      simpa using hnotice
    · rw [hend]
      simpa using hre
    · rw [hend]
      simp
    · rw [hend]
      simp

end Sys2Proof.Machine
end

section
/-! Headers as they are sent and as they are judged (chapter 02). -/

namespace Sys2Proof.Machine

/-! ### Bytes -/

theorem toByte_toNat {n : Nat} (h : n < 256) : (toByte n).toNat = n := by
  simp [toByte, Nat.mod_eq_of_lt h]

theorem toByte_of_toNat (b : Byte) : toByte b.toNat = b := by simp [toByte]

theorem setWidth_lt (q : Seq) : (q.setWidth 8).toNat < 16 := by
  have := q.isLt
  simp only [BitVec.toNat_setWidth]
  omega

theorem setWidth_narrow (q : Seq) : (q.setWidth 8).setWidth 4 = q := by
  apply BitVec.eq_of_toNat_eq
  have := q.isLt
  simp only [BitVec.toNat_setWidth]
  omega

/-- A byte below 16 is a sequence (R20, R21). -/
theorem setWidth_widen {b : Byte} (h : b.toNat < 16) : (b.setWidth 4).setWidth 8 = b := by
  apply BitVec.eq_of_toNat_eq
  simp only [BitVec.toNat_setWidth]
  omega

/-! ### The codes (R20, R21, R181) -/

theorem frameKindOf_code (k : FrameKind) : frameKindOf k.code = some k := by cases k <;> rfl

theorem code_of_frameKindOf {b : Byte} {k : FrameKind} (h : frameKindOf b = some k) : b = k.code := by
  simp only [frameKindOf] at h
  split_ifs at h with h1 h2 h3 h4 <;> cases h <;> assumption

theorem answerCodeOf_code (c : AnswerCode) : answerCodeOf c.code = some c := by cases c <;> rfl

theorem code_of_answerCodeOf {b : Byte} {c : AnswerCode} (h : answerCodeOf b = some c) : b = c.code := by
  simp only [answerCodeOf] at h
  split_ifs at h <;> cases h <;> assumption

theorem headerLength_of_frame (k : FrameKind) (rest : List Byte) : headerLength (k.code :: rest) = 7 := by cases k <;> rfl

theorem headerLength_of_answer (rest : List Byte) : headerLength (answerKindByte :: rest) = 6 := rfl

/-! ### The fields of a frame header (R20) -/

/-- The fields that a frame header must have in a roster of `n` (R20). -/
structure FrameFits (n : Nat) (kind : FrameKind) (source destination slot length : Nat) : Prop where
  sourceIn : source < n
  peer : kind = .dataDirect ∨ kind = .probe → destination < n ∧ destination ≠ source
  all : kind = .dataAll ∨ kind = .orderReset → destination = 63
  slotIn : (n ≤ slot ∧ slot < 2 * n) ∨ (kind = .orderReset ∧ slot = source)
  payload : kind = .dataDirect ∨ kind = .dataAll → length ≤ 240
  probe : kind = .probe → length = 0
  reset : kind = .orderReset → length = 2

theorem destinationFits_iff {n : Nat} {kind : FrameKind} {source destination : Nat} :
    destinationFits n kind source destination = true ↔
      (kind = .dataDirect ∨ kind = .probe → destination < n ∧ destination ≠ source) ∧
        (kind = .dataAll ∨ kind = .orderReset → destination = 63) := by
  cases kind <;> simp [destinationFits, allAddress]

theorem claimSlotFits_iff {n : Nat} {kind : FrameKind} {source slot : Nat} : claimSlotFits n kind source slot = true ↔
    (n ≤ slot ∧ slot < 2 * n) ∨ (kind = .orderReset ∧ slot = source) := by
  simp [claimSlotFits]

theorem lengthFits_iff {kind : FrameKind} {length : Nat} : lengthFits kind length = true ↔
    (kind = .dataDirect ∨ kind = .dataAll → length ≤ 240) ∧ (kind = .probe → length = 0) ∧ (kind = .orderReset → length = 2) := by
  cases kind <;> simp [lengthFits]

theorem frameFits_iff {n : Nat} {kind : FrameKind} {source destination slot length : Nat} :
    FrameFits n kind source destination slot length ↔ source < n ∧ destinationFits n kind source destination = true ∧
      claimSlotFits n kind source slot = true ∧ lengthFits kind length = true := by
  rw [destinationFits_iff, claimSlotFits_iff, lengthFits_iff]
  constructor
  · rintro ⟨hsource, hpeer, hall, hslot, hpayload, hprobe, hreset⟩
    exact ⟨hsource, ⟨hpeer, hall⟩, hslot, hpayload, hprobe, hreset⟩
  · rintro ⟨hsource, ⟨hpeer, hall⟩, hslot, hpayload, hprobe, hreset⟩
    exact ⟨hsource, hpeer, hall, hslot, hpayload, hprobe, hreset⟩

/-- With at most 32 stations every field of a frame header is a byte. -/
theorem FrameFits.bytes {n : Nat} {kind : FrameKind} {source destination slot length : Nat}
    (h : FrameFits n kind source destination slot length) (hn : n ≤ 32) :
    source < 256 ∧ destination < 256 ∧ slot < 256 ∧ length < 256 := by
  obtain ⟨hsource, hpeer, hall, hslot, hpayload, hprobe, hreset⟩ := h
  have hslot' : slot < 256 := by
    obtain h | ⟨-, h⟩ := hslot <;> omega
  cases kind with
  | dataDirect => exact ⟨by omega, by have := hpeer (.inl rfl); omega, hslot', by have := hpayload (.inl rfl); omega⟩
  | dataAll => exact ⟨by omega, by have := hall (.inl rfl); omega, hslot', by have := hpayload (.inr rfl); omega⟩
  | probe => exact ⟨by omega, by have := hpeer (.inr rfl); omega, hslot', by have := hprobe rfl; omega⟩
  | orderReset => exact ⟨by omega, by have := hall (.inr rfl); omega, hslot', by have := hreset rfl; omega⟩

/-- The seven bytes of a frame header. -/
def frameBytes (f : FrameHeader) (check : Byte) : List Byte :=
  [f.kind.code, toByte f.source, toByte f.destination, toByte f.claimSlot, f.sequence.setWidth 8, toByte f.length, check]

/-- A frame header that fits is valid under its check (R20). -/
theorem judgeFrameHeader_of_fits {n : Nat} (hn : n ≤ 32) {f : FrameHeader}
    (h : FrameFits n f.kind f.source f.destination f.claimSlot f.length) (check : Byte) :
    judgeHeader n (frameBytes f check) check = some (.frame f) := by
  obtain ⟨hsource, hdest, hslot, hlength⟩ := h.bytes hn
  obtain ⟨hin, hdestFits, hslotFits, hlengthFits⟩ := frameFits_iff.mp h
  have hjudge : judgeHeader n (frameBytes f check) check = judgeFrameHeader n (frameBytes f check) check :=
    if_neg (by rw [frameBytes, headerLength_of_frame]; omega)
  rw [hjudge, frameBytes, judgeFrameHeader]
  simp only [frameKindOf_code, toByte_toNat hsource, toByte_toNat hdest, toByte_toNat hslot, toByte_toNat hlength,
    setWidth_narrow]
  exact if_pos ⟨trivial, setWidth_lt _, hin, hdestFits, hslotFits, hlengthFits⟩

/-- A valid frame header fits, and its bytes are those of its fields (R20). -/
theorem fits_of_judgeFrameHeader {n : Nat} {bytes : List Byte} {check : Byte} {f : FrameHeader}
    (h : judgeFrameHeader n bytes check = some (.frame f)) :
    bytes = frameBytes f check ∧ FrameFits n f.kind f.source f.destination f.claimSlot f.length := by
  unfold judgeFrameHeader at h
  split at h
  case h_1 kindByte source destination slot sequence length received =>
    split at h
    case h_1 => exact absurd h (by simp)
    case h_2 kind hkind =>
      split_ifs at h with hfits
      obtain ⟨hcheck, hseq, hin, hdest, hslot, hlength⟩ := hfits
      obtain rfl := Header.frame.inj (Option.some.inj h)
      refine ⟨?_, frameFits_iff.mpr ⟨hin, hdest, hslot, hlength⟩⟩
      simp [frameBytes, ← code_of_frameKindOf hkind, toByte_of_toNat, setWidth_widen hseq, hcheck]
  case h_2 => exact absurd h (by simp)

/-! ### The fields of an ANSWER header (R21) -/

/-- The six bytes of an ANSWER header. -/
def answerBytes (a : AnswerHeader) (check : Byte) : List Byte :=
  [answerKindByte, toByte a.source, toByte a.destination, a.code.code, a.echo.setWidth 8, check]

theorem judgeAnswerHeader_of_fits {n : Nat} (hn : n ≤ 32) {a : AnswerHeader} (hsource : a.source < n)
    (hdest : a.destination < n) (hne : a.destination ≠ a.source) (check : Byte) :
    judgeHeader n (answerBytes a check) check = some (.answer a) := by
  have hs : (toByte a.source).toNat = a.source := toByte_toNat (by omega)
  have hd : (toByte a.destination).toNat = a.destination := toByte_toNat (by omega)
  have hbytes : toByte a.destination ≠ toByte a.source := fun heq => hne (by rw [← hd, ← hs, heq])
  have hjudge : judgeHeader n (answerBytes a check) check = judgeAnswerHeader n (answerBytes a check) check :=
    if_pos (headerLength_of_answer _)
  rw [hjudge, answerBytes, judgeAnswerHeader]
  simp only [answerCodeOf_code, hs, hd, setWidth_narrow]
  exact if_pos ⟨trivial, trivial, setWidth_lt _, hsource, hdest, hbytes⟩

theorem fits_of_judgeAnswerHeader {n : Nat} {bytes : List Byte} {check : Byte} {a : AnswerHeader}
    (h : judgeAnswerHeader n bytes check = some (.answer a)) :
    bytes = answerBytes a check ∧ a.source < n ∧ a.destination < n ∧ a.destination ≠ a.source := by
  unfold judgeAnswerHeader at h
  split at h
  case h_1 kindByte source destination code echo received =>
    split at h
    case h_1 => exact absurd h (by simp)
    case h_2 c hcode =>
      split_ifs at h with hfits
      obtain ⟨hkind, hcheck, hecho, hsource, hdest, hne⟩ := hfits
      obtain rfl := Header.answer.inj (Option.some.inj h)
      refine ⟨?_, hsource, hdest, fun heq => hne (BitVec.eq_of_toNat_eq heq)⟩
      simp [answerBytes, ← code_of_answerCodeOf hcode, toByte_of_toNat, setWidth_widen hecho, hcheck, hkind]
  case h_2 => exact absurd h (by simp)

/-- Either form of header yields its own form only. -/
theorem judgeFrameHeader_ne_answer {n : Nat} {bytes : List Byte} {check : Byte} {a : AnswerHeader} :
    judgeFrameHeader n bytes check ≠ some (.answer a) := by
  unfold judgeFrameHeader
  split
  · split
    · simp
    · split_ifs <;> simp
  · simp

theorem judgeAnswerHeader_ne_frame {n : Nat} {bytes : List Byte} {check : Byte} {f : FrameHeader} :
    judgeAnswerHeader n bytes check ≠ some (.frame f) := by
  unfold judgeAnswerHeader
  split
  · split
    · simp
    · split_ifs <;> simp
  · simp

/-- The header of a frame that a source sends at a request (R17). -/
def frameHeaderOf (source : Nat) (r : FrameRequest) : FrameHeader :=
  { kind := r.kind, source := source, destination := r.destination, claimSlot := r.claimSlot, sequence := r.sequence,
    length := r.length }

/-- Settles O35, both forms in both directions. -/
theorem headerRoundTrip : Obligations.HeaderRoundTrip := by
  refine ⟨fun n source r hn hsource hpeer hall hslot hpayload hprobe hreset => ?_, fun n source a hn hsource hdest hne => ?_,
    fun n bytes check f h => ?_, fun n bytes check a h => ?_⟩
  · exact judgeFrameHeader_of_fits (f := frameHeaderOf source r) hn
      ⟨hsource, hpeer, hall, hslot, hpayload, hprobe, hreset⟩ _
  · exact judgeAnswerHeader_of_fits (a := { source := source, destination := a.destination, code := a.code, echo := a.echo })
      hn hsource hdest hne _
  · rw [judgeHeader] at h
    split_ifs at h
    · exact absurd h judgeAnswerHeader_ne_frame
    · obtain ⟨hbytes, hsource, hpeer, hall, hslot, hpayload, hprobe, hreset⟩ := fits_of_judgeFrameHeader h
      exact ⟨hbytes, hsource, hpeer, hall, hslot, hpayload, hprobe, hreset⟩
  · rw [judgeHeader] at h
    split_ifs at h
    · exact fits_of_judgeAnswerHeader h
    · exact absurd h judgeFrameHeader_ne_answer

end Sys2Proof.Machine
end

section
/-! The deframer on the symbols of a frame (chapter 02): bits, the hunt and the header. -/

namespace Sys2Proof.Machine

/-! ### The bits of a byte on the line (R9) -/

theorem byteOfBits_bit (l : List Bool) (i : Nat) (hi : i < 8) : (byteOfBits l).getLsbD i = l.getD i false := by
  induction l generalizing i with
  | nil => simp [byteOfBits]
  | cons b bs ih =>
    cases i with
    | zero => cases b <;> simp [byteOfBits]
    | succ i =>
      have hrest := ih i (by omega)
      rw [BitVec.getLsbD_eq_getElem (by omega)] at hrest
      cases b <;> simpa [byteOfBits, hi] using hrest

theorem byteOfBits_bitsLowFirst (b : Byte) : byteOfBits (bitsLowFirst b) = b := by
  refine BitVec.eq_of_getLsbD_eq fun i hi => ?_
  rw [byteOfBits_bit _ i hi]
  simp [bitsLowFirst, hi]

/-- The last bit of a byte on the line, and the seven before it. -/
theorem bitsLowFirst_split (b : Byte) : ∃ first last, bitsLowFirst b = first ++ [last] ∧ first.length = 7 := by
  have hne : bitsLowFirst b ≠ [] := List.ne_nil_of_length_pos (by simp)
  exact ⟨_, _, (List.dropLast_append_getLast hne).symm, by simp⟩

/-! ### A run of the deframer over symbols -/

/-- The deframer takes the readings of symbols, one after another (R24 to R28). -/
def takeSymbols (l : List Bool) (s : State) : State := l.foldl (fun s x => takeReading (Reading.ofBit x) s) s

theorem takeSymbols_nil (s : State) : takeSymbols [] s = s := rfl

theorem takeSymbols_cons (x : Bool) (l : List Bool) (s : State) :
    takeSymbols (x :: l) s = takeSymbols l (takeReading (Reading.ofBit x) s) := rfl

theorem takeSymbols_append (l m : List Bool) (s : State) : takeSymbols (l ++ m) s = takeSymbols m (takeSymbols l s) := by
  rw [takeSymbols, takeSymbols, takeSymbols, List.foldl_append]

theorem takeSymbols_singleton (x : Bool) (s : State) : takeSymbols [x] s = takeReading (Reading.ofBit x) s := rfl

/-- A state whose deframer and staging buffer are `d` and `g`. -/
def receiving (d : Deframer) (g : Option Staging) (s : State) : State := onDeframer (fun _ => d) (setStaging g s)

theorem receiving_self (s : State) : receiving s.fu.deframer s.re.staging s = s := rfl

theorem receiving_deframer (d : Deframer) (g : Option Staging) (s : State) : (receiving d g s).fu.deframer = d := rfl

theorem onDeframer_receiving (f : Deframer → Deframer) (d : Deframer) (g : Option Staging) (s : State) :
    onDeframer f (receiving d g s) = receiving (f d) g s := rfl

/-! ### The hunt (R24) -/

/-- The deframer after one more reading in HUNT, as long as the search is not over. -/
def Deframer.hunt (d : Deframer) (x : Bool) : Deframer :=
  let recent := (Reading.ofBit x :: d.recent).take 16
  if recent = syncReadings then
    { d with phase := .header, headerBytes := [], bits := [], headerCheck := 0xFF, recent := recent, count := d.count + 1 }
  else { d with recent := recent, count := d.count + 1 }

/-- Every reading of the list is taken in HUNT, before the search is over. -/
def Deframer.huntsThrough : Deframer → List Bool → Bool
  | _, [] => true
  | d, x :: l => d.phase == .hunt && decide (d.count < 31) && (d.hunt x).huntsThrough l

/-- A reading before the 32nd that does not complete the sync pattern. -/
theorem takeHunt_of_searching {s : State} {r : Reading} (h : (r :: s.fu.deframer.recent).take 16 ≠ syncReadings)
    (hcount : s.fu.deframer.count < 31) :
    takeHunt r s = onDeframer (fun d => { d with recent := recentWith r s, count := d.count + 1 }) s := by
  have hrecent : ¬(recentWith r s == syncReadings) = true := by simpa [recentWith] using h
  have hearly : ¬32 ≤ (onDeframer (fun d => { d with recent := recentWith r s, count := d.count + 1 }) s).fu.deframer.count :=
    Nat.not_le.mpr (Nat.succ_lt_succ hcount)
  exact (if_neg hrecent).trans (if_neg hearly)

theorem takeReading_hunt {d : Deframer} (hphase : d.phase = .hunt) (hcount : d.count < 31) (x : Bool) (g : Option Staging)
    (s : State) : takeReading (Reading.ofBit x) (receiving d g s) = receiving (d.hunt x) g s := by
  rw [takeReading_of_hunt (s := receiving d g s) hphase]
  by_cases hsync : (Reading.ofBit x :: d.recent).take 16 = syncReadings
  · rw [takeHunt_of_sync (s := receiving d g s) hsync, onDeframer_receiving, Deframer.hunt, if_pos hsync, hsync]
  · rw [takeHunt_of_searching (s := receiving d g s) hsync hcount, onDeframer_receiving, Deframer.hunt, if_neg hsync]
    rfl

theorem takeSymbols_hunt {l : List Bool} {d : Deframer} (h : d.huntsThrough l = true) (g : Option Staging) (s : State) :
    takeSymbols l (receiving d g s) = receiving (l.foldl Deframer.hunt d) g s := by
  induction l generalizing d with
  | nil => rfl
  | cons x l ih =>
    obtain ⟨⟨hphase, hcount⟩, hrest⟩ : (d.phase = .hunt ∧ d.count < 31) ∧ (d.hunt x).huntsThrough l = true := by
      simpa [Deframer.huntsThrough] using h
    rw [takeSymbols_cons, takeReading_hunt hphase hcount, ih hrest, List.foldl_cons]

/-- The deframer at the start of a foreign candidate (R23). -/
def Deframer.hunting : Deframer := { Deframer.initial with phase := .hunt }

/-- The deframer once it has found sync behind the preamble (R24). -/
def Deframer.synced : Deframer := { Deframer.initial with phase := .header, count := 24, recent := syncReadings }

/-- The preamble and the sync pattern take the deframer to HEADER. -/
theorem takeSymbols_preamble (g : Option Staging) (s : State) :
    takeSymbols (preambleSymbols ++ syncSymbols) (receiving .hunting g s) = receiving .synced g s := by
  have hthrough : Deframer.hunting.huntsThrough (preambleSymbols ++ syncSymbols) = true := by decide
  have hsynced : (preambleSymbols ++ syncSymbols).foldl Deframer.hunt .hunting = .synced := by decide
  rw [takeSymbols_hunt hthrough, hsynced]

/-! ### The header (R25) -/

theorem takeReading_header {d : Deframer} (hphase : d.phase = .header) (x : Bool) (g : Option Staging) (s : State) :
    takeReading (Reading.ofBit x) (receiving d g s) = takeHeaderBit x (receiving d g s) := by
  rw [takeReading_of_header (s := receiving d g s) hphase, takeHeader_ofBit]

/-- The first bits of a header byte are kept. -/
theorem takeSymbols_headerBits {l : List Bool} {d : Deframer} (hphase : d.phase = .header) (hshort : d.bits.length + l.length < 8)
    (g : Option Staging) (s : State) : takeSymbols l (receiving d g s) = receiving { d with bits := d.bits ++ l } g s := by
  induction l generalizing d with
  | nil => simp [takeSymbols_nil]
  | cons x l ih =>
    have hbits : ¬(d.bits ++ [x]).length = 8 := by
      simp only [List.length_cons] at hshort
      simp
      omega
    have hbit : takeHeaderBit x (receiving d g s) = receiving { d with bits := d.bits ++ [x] } g s := if_neg hbits
    rw [takeSymbols_cons, takeReading_header hphase, hbit, ih (d := { d with bits := d.bits ++ [x] }) hphase (by simp at hshort ⊢; omega)]
    simp

/-- A header byte is taken once its eighth bit has been read. -/
theorem takeSymbols_headerByte {d : Deframer} (hphase : d.phase = .header) (hbits : d.bits = []) (b : Byte) (g : Option Staging)
    (s : State) : takeSymbols (bitsLowFirst b) (receiving d g s) = takeHeaderByte b (receiving d g s) := by
  obtain ⟨first, last, hsplit, hlength⟩ := bitsLowFirst_split b
  have hbyte : byteOfBits (first ++ [last]) = b := by rw [← hsplit, byteOfBits_bitsLowFirst]
  rw [hsplit, takeSymbols_append, takeSymbols_headerBits hphase (by simp [hbits, hlength]), takeSymbols_singleton,
    takeReading_header (d := { d with bits := d.bits ++ first }) hphase,
    takeHeaderBit_of_last (s := receiving { d with bits := d.bits ++ first } g s) (by simp [receiving_deframer, hbits, hlength])]
  have hsame : (receiving { d with bits := d.bits ++ first } g s).fu.deframer.bits ++ [last] = first ++ [last] := by
    simp [receiving_deframer, hbits]
  rw [hsame, hbyte]
  rfl

/-- A header byte before the last one is fed to the check. -/
theorem takeHeaderByte_of_early {d : Deframer} {b : Byte} (h : (d.headerBytes ++ [b]).length ≠ headerLength (d.headerBytes ++ [b]))
    (g : Option Staging) (s : State) : takeHeaderByte b (receiving d g s) = receiving { d with
      headerBytes := d.headerBytes ++ [b], bits := [], headerCheck := headerCheckByte d.headerCheck b } g s :=
  if_neg h

/-- The bytes of a frame header before its check byte. -/
theorem takeSymbols_headerBytes {k : FrameKind} {l : List Byte} {d : Deframer} (hphase : d.phase = .header) (hbits : d.bits = [])
    (hhead : l ≠ [] → (d.headerBytes ++ l).head? = some k.code) (hlength : d.headerBytes.length + l.length < 7)
    (g : Option Staging) (s : State) : takeSymbols (l.flatMap bitsLowFirst) (receiving d g s) = receiving { d with
      headerBytes := d.headerBytes ++ l, bits := [], headerCheck := l.foldl headerCheckByte d.headerCheck } g s := by
  induction l generalizing d with
  | nil =>
    have hsame : { d with headerBytes := d.headerBytes ++ [], bits := [] } = d := by rw [List.append_nil, ← hbits]
    exact congrArg (receiving · g s) hsame.symm
  | cons b l ih =>
    have hnext : (d.headerBytes ++ [b] ++ l).head? = some k.code := by simpa using hhead (by simp)
    have hearly : (d.headerBytes ++ [b]).length ≠ headerLength (d.headerBytes ++ [b]) := by
      have hseven : headerLength (d.headerBytes ++ [b]) = 7 := by
        rw [List.head?_append_of_ne_nil _ (by simp)] at hnext
        rw [headerLength, hnext]
        cases k <;> rfl
      simp only [List.length_cons] at hlength
      rw [hseven, List.length_append, List.length_singleton]
      omega
    rw [List.flatMap_cons, takeSymbols_append, takeSymbols_headerByte hphase hbits, takeHeaderByte_of_early hearly,
      ih (d := { d with headerBytes := d.headerBytes ++ [b], bits := [], headerCheck := headerCheckByte d.headerCheck b })
        hphase rfl (fun _ => hnext) (by simp at hlength ⊢; omega)]
    simp

end Sys2Proof.Machine
end

section
/-! The deframer on the symbols of a frame (chapter 02): the body, its check and the end symbols. -/

namespace Sys2Proof.Machine

/-! ### The body (R26) -/

theorem takeReading_body {d : Deframer} (hphase : d.phase = .body) (x : Bool) (g : Option Staging) (s : State) :
    takeReading (Reading.ofBit x) (receiving d g s) = takeBody (Reading.ofBit x) (receiving d g s) :=
  takeReading_of_body (s := receiving d g s) hphase _

/-- The deframer and one more body symbol. -/
def Deframer.bodyBit (d : Deframer) (x : Bool) : Deframer := { d with bits := d.bits ++ [x], expected := d.expected - 1 }

/-- A body symbol, once it has been counted (R26). -/
theorem takeBody_ofBit (x : Bool) (d : Deframer) (g : Option Staging) (s : State) :
    takeBody (Reading.ofBit x) (receiving d g s) =
      let w := if (d.bits ++ [x]).length = 8 then takeBodyByte (byteOfBits (d.bits ++ [x])) (receiving (d.bodyBit x) g s)
        else receiving (d.bodyBit x) g s
      if w.fu.deframer.expected = 0 then bodyComplete w else w := by
  have hcounted : { d with bits := d.bits ++ [x], expected := d.expected - 1, bodyFailed := d.bodyFailed || false } = d.bodyBit x := by
    rw [Bool.or_false]
    rfl
  rw [← hcounted]
  cases x <;> rfl

theorem takeBodyByte_expected (b : Byte) (s : State) : (takeBodyByte b s).fu.deframer.expected = s.fu.deframer.expected := by
  simp only [takeBodyByte]
  split_ifs <;> rfl

/-- The first bits of a body byte are kept. -/
theorem takeSymbols_bodyBits {l : List Bool} {d : Deframer} (hphase : d.phase = .body) (hshort : d.bits.length + l.length < 8)
    (hexpected : l.length < d.expected) (g : Option Staging) (s : State) : takeSymbols l (receiving d g s) =
      receiving { d with bits := d.bits ++ l, expected := d.expected - l.length } g s := by
  induction l generalizing d with
  | nil => simp [takeSymbols_nil]
  | cons x l ih =>
    simp only [List.length_cons] at hshort hexpected
    have hbits : ¬(d.bits ++ [x]).length = 8 := by
      simp
      omega
    have hmore : ¬(receiving (d.bodyBit x) g s).fu.deframer.expected = 0 := by
      simp [receiving_deframer, Deframer.bodyBit]
      omega
    have hbit : takeBody (Reading.ofBit x) (receiving d g s) = receiving (d.bodyBit x) g s := by
      rw [takeBody_ofBit]
      simp only [if_neg hbits, if_neg hmore]
    rw [takeSymbols_cons, takeReading_body hphase, hbit, ih (d := d.bodyBit x) hphase (by simp [Deframer.bodyBit]; omega)
      (by simp [Deframer.bodyBit]; omega)]
    simp [Deframer.bodyBit, Nat.sub_sub, Nat.add_comm]

/-- The deframer before a body byte is completed. -/
def Deframer.lessByte (d : Deframer) : Deframer := { d with expected := d.expected - 8 }

/-- The first seven bits of a body byte, and the eighth. -/
theorem takeSymbols_bodyByte_split {d : Deframer} (hphase : d.phase = .body) (hbits : d.bits = []) (hexpected : 8 ≤ d.expected)
    (b : Byte) (g : Option Staging) (s : State) : takeSymbols (bitsLowFirst b) (receiving d g s) =
      let w := takeBodyByte b (receiving d.lessByte g s)
      if d.expected = 8 then bodyComplete w else w := by
  obtain ⟨first, last, hsplit, hlength⟩ := bitsLowFirst_split b
  have hbyte : byteOfBits (first ++ [last]) = b := by rw [← hsplit, byteOfBits_bitsLowFirst]
  let e : Deframer := { d with bits := d.bits ++ first, expected := d.expected - first.length }
  have hfull : (first ++ [last]).length = 8 := by simp [hlength]
  have hsame : e.bits ++ [last] = first ++ [last] := by simp [e, hbits]
  have hcount : (takeBodyByte b (receiving (e.bodyBit last) g s)).fu.deframer.expected = d.expected - 8 := by
    rw [takeBodyByte_expected]
    simp [receiving_deframer, Deframer.bodyBit, e, hlength]
    omega
  have hcond : (takeBodyByte b (receiving (e.bodyBit last) g s)).fu.deframer.expected = 0 ↔ d.expected = 8 := by
    rw [hcount]
    omega
  have htaken : takeBodyByte b (receiving (e.bodyBit last) g s) = takeBodyByte b (receiving d.lessByte g s) := by
    have hbit : e.bodyBit last = { d.lessByte with bits := e.bits ++ [last] } := by
      simp [Deframer.bodyBit, Deframer.lessByte, e, hlength, Nat.sub_sub]
    rw [hbit]
    rfl
  rw [hsplit, takeSymbols_append, takeSymbols_bodyBits hphase (by simp [hbits, hlength]) (by omega), takeSymbols_singleton,
    takeReading_body (d := e) hphase, takeBody_ofBit]
  simp only [if_pos hfull, hsame, hbyte]
  rw [if_congr hcond rfl rfl, htaken]

/-- A payload byte in the deframer (R26). -/
def Deframer.payloadByte (d : Deframer) (b : Byte) : Deframer :=
  { d with bits := [], bodyBytes := d.bodyBytes ++ [b], bodyCheck := bodyCheckByte d.bodyCheck b }

/-- A byte of the body check in the deframer (R26). -/
def Deframer.checkByte (d : Deframer) (b : Byte) : Deframer := { d with bits := [], bodyBytes := d.bodyBytes ++ [b] }

theorem takeBodyByte_of_payload {d : Deframer} (h : d.bodyBytes.length < d.payloadLength) (b : Byte) (g : Option Staging)
    (s : State) : takeBodyByte b (receiving d g s) =
      receiving (d.payloadByte b) (g.map fun g => { g with bytes := g.bytes ++ [b] }) s := by
  have hpayload : (receiving d g s).fu.deframer.bodyBytes.length < (receiving d g s).fu.deframer.payloadLength := h
  have hbyte : d.payloadByte b = { d with
      bits := [], bodyBytes := d.bodyBytes ++ [b]
      bodyCheck := if d.bodyBytes.length < d.payloadLength then bodyCheckByte d.bodyCheck b else d.bodyCheck } := by
    rw [if_pos h]
    rfl
  rw [hbyte]
  exact if_pos hpayload

theorem takeBodyByte_of_check {d : Deframer} (h : ¬d.bodyBytes.length < d.payloadLength) (b : Byte) (g : Option Staging)
    (s : State) : takeBodyByte b (receiving d g s) = receiving (d.checkByte b) g s := by
  have hcheck : ¬(receiving d g s).fu.deframer.bodyBytes.length < (receiving d g s).fu.deframer.payloadLength := h
  have hbyte : d.checkByte b = { d with
      bits := [], bodyBytes := d.bodyBytes ++ [b]
      bodyCheck := if d.bodyBytes.length < d.payloadLength then bodyCheckByte d.bodyCheck b else d.bodyCheck } := by
    rw [if_neg h]
    rfl
  rw [hbyte]
  exact if_neg hcheck

/-- The deframer and a run of payload bytes. -/
def Deframer.payloadBytes (d : Deframer) (l : List Byte) : Deframer :=
  { d with bits := [], bodyBytes := d.bodyBytes ++ l, bodyCheck := l.foldl bodyCheckByte d.bodyCheck,
           expected := d.expected - 8 * l.length }

/-- The payload goes to the body check and to the staging buffer (R26, R127). -/
theorem takeSymbols_payload {l : List Byte} {d : Deframer} (hphase : d.phase = .body) (hbits : d.bits = [])
    (hpayload : d.bodyBytes.length + l.length ≤ d.payloadLength) (hexpected : 8 * l.length < d.expected) (g : Option Staging)
    (s : State) : takeSymbols (l.flatMap bitsLowFirst) (receiving d g s) =
      receiving (d.payloadBytes l) (g.map fun g => { g with bytes := g.bytes ++ l }) s := by
  induction l generalizing d g with
  | nil =>
    have hsame : d.payloadBytes [] = d := by
      simp only [Deframer.payloadBytes, List.append_nil, List.foldl_nil, List.length_nil, Nat.mul_zero, Nat.sub_zero]
      rw [← hbits]
    have hstaging : g.map (fun g => { g with bytes := g.bytes ++ [] }) = g := by simp
    rw [hsame, hstaging, List.flatMap_nil, takeSymbols_nil]
  | cons b l ih =>
    simp only [List.length_cons] at hpayload hexpected
    have hmore : ¬d.expected = 8 := by omega
    have hin : d.lessByte.bodyBytes.length < d.lessByte.payloadLength := by
      have hlength : d.lessByte.payloadLength = d.payloadLength := rfl
      have hbytes : d.lessByte.bodyBytes = d.bodyBytes := rfl
      rw [hlength, hbytes]
      omega
    have hroom : (d.lessByte.payloadByte b).bodyBytes.length + l.length ≤ (d.lessByte.payloadByte b).payloadLength := by
      have hlength : (d.lessByte.payloadByte b).payloadLength = d.payloadLength := rfl
      have hbytes : (d.lessByte.payloadByte b).bodyBytes = d.bodyBytes ++ [b] := rfl
      rw [hlength, hbytes, List.length_append, List.length_singleton]
      omega
    have hleft : 8 * l.length < (d.lessByte.payloadByte b).expected := by
      have hcount : (d.lessByte.payloadByte b).expected = d.expected - 8 := rfl
      rw [hcount]
      omega
    have hall : (d.lessByte.payloadByte b).payloadBytes l = d.payloadBytes (b :: l) := by
      simp [Deframer.payloadBytes, Deframer.payloadByte, Deframer.lessByte, Nat.sub_sub, Nat.mul_add, Nat.add_comm]
    rw [List.flatMap_cons, takeSymbols_append, takeSymbols_bodyByte_split hphase hbits (by omega)]
    simp only [if_neg hmore]
    rw [takeBodyByte_of_payload hin, ih (d := d.lessByte.payloadByte b) hphase rfl hroom hleft, hall]
    simp [Function.comp_def]

/-! ### The body check and the end symbols (R26, R27) -/

/-- The deframer once the body is complete. -/
def Deframer.complete (d : Deframer) : Deframer :=
  { d with phase := .tail, tail := 0, bodyFailed := d.bodyFailed || d.checkDiffers || d.badIndicator }

/-- The two bytes of the body check (R26). -/
theorem takeSymbols_check {d : Deframer} (hphase : d.phase = .body) (hbits : d.bits = [])
    (hpayload : d.payloadLength ≤ d.bodyBytes.length) (hexpected : d.expected = 16) (low high : Byte) (g : Option Staging)
    (s : State) : takeSymbols ([low, high].flatMap bitsLowFirst) (receiving d g s) =
      receiving ((d.lessByte.checkByte low).lessByte.checkByte high).complete g s := by
  have hlow : ¬d.lessByte.bodyBytes.length < d.lessByte.payloadLength := Nat.not_lt.mpr hpayload
  have hhigh : ¬(d.lessByte.checkByte low).lessByte.bodyBytes.length < (d.lessByte.checkByte low).lessByte.payloadLength := by
    have hlength : (d.lessByte.checkByte low).lessByte.payloadLength = d.payloadLength := rfl
    have hbytes : (d.lessByte.checkByte low).lessByte.bodyBytes = d.bodyBytes ++ [low] := rfl
    rw [hlength, hbytes, List.length_append]
    omega
  have hnext : (d.lessByte.checkByte low).expected = 8 := by
    have hcount : (d.lessByte.checkByte low).expected = d.expected - 8 := rfl
    rw [hcount, hexpected]
  rw [List.flatMap_cons, takeSymbols_append, takeSymbols_bodyByte_split hphase hbits (by omega)]
  simp only [if_neg (show ¬d.expected = 8 by omega)]
  rw [takeBodyByte_of_check hlow, List.flatMap_cons, List.flatMap_nil, List.append_nil,
    takeSymbols_bodyByte_split (d := d.lessByte.checkByte low) hphase rfl (by omega)]
  simp only [if_pos hnext]
  rw [takeBodyByte_of_check hhigh]
  rfl

/-- The end symbols of a frame that has not overrun (R27). -/
theorem takeSymbols_end {d : Deframer} (hphase : d.phase = .tail) (htail : d.tail = 0) (g : Option Staging) (s : State) :
    takeSymbols endSymbols (receiving d g s) = receiving { d with tail := 2 } g s := by
  have hend {e : Deframer} (hphase : e.phase = .tail) (hshort : e.tail < 2) :
      takeReading (Reading.ofBit true) (receiving e g s) = receiving { e with tail := e.tail + 1 } g s := by
    have hone : takeTail .one (receiving e g s) =
        receiving { e with tail := e.tail + 1, bodyFailed := e.bodyFailed || false } g s := if_neg (by simpa [receiving_deframer] using hshort)
    rw [takeReading_of_tail (s := receiving e g s) hphase]
    rw [Bool.or_false] at hone
    exact hone
  have hsymbols : endSymbols = [true, true] := rfl
  rw [hsymbols, takeSymbols_cons, takeSymbols_singleton, hend hphase (by omega), hend (e := { d with tail := d.tail + 1 }) hphase (by simp [htail])]
  simp [htail]

end Sys2Proof.Machine
end

section
/-! A frame as it is sent and as the deframer reads it (chapter 02). -/

namespace Sys2Proof.Machine

/-! ### The header of a frame that is sent (R17, R25) -/

/-- The six header bytes before the check byte. -/
def headerBytesOf (source : Nat) (r : FrameRequest) : List Byte :=
  [r.kind.code, toByte source, toByte r.destination, toByte r.claimSlot, r.sequence.setWidth 8, toByte r.length]

/-- The deframer with the whole header of a frame. -/
def Deframer.headed (source : Nat) (r : FrameRequest) : Deframer :=
  { Deframer.synced with headerBytes := frameHeaderBytes source r, headerCheck := headerCheckOf (headerBytesOf source r) }

/-- The header bytes of a fitting request bring a valid header (R20, R25). -/
theorem takeSymbols_frameHeader {source : Nat} {r : FrameRequest} {s : State} (hn : s.ac.setup.roster ≤ 32)
    (h : FrameFits s.ac.setup.roster r.kind source r.destination r.claimSlot r.length) (g : Option Staging) :
    takeSymbols ((frameHeaderBytes source r).flatMap bitsLowFirst) (receiving .synced g s) =
      headerValid (.frame (frameHeaderOf source r)) (receiving (.headed source r) g s) := by
  let check := headerCheckOf (headerBytesOf source r)
  let d : Deframer := { Deframer.synced with headerBytes := headerBytesOf source r, headerCheck := check }
  have hbytes : frameHeaderBytes source r = headerBytesOf source r ++ [check] := rfl
  have hlast : (d.headerBytes ++ [check]).length = headerLength (d.headerBytes ++ [check]) := by
    have hseven : headerLength (d.headerBytes ++ [check]) = 7 := headerLength_of_frame r.kind _
    rw [hseven]
    rfl
  have hjudge : judgeHeader s.ac.setup.roster (d.headerBytes ++ [check]) check = some (.frame (frameHeaderOf source r)) :=
    judgeFrameHeader_of_fits (f := frameHeaderOf source r) hn h check
  have hsix := takeSymbols_headerBytes (k := r.kind) (l := headerBytesOf source r) (d := .synced) rfl rfl (fun _ => rfl)
    (by simp [headerBytesOf, Deframer.synced, Deframer.initial]) g s
  have hsix' : takeSymbols ((headerBytesOf source r).flatMap bitsLowFirst) (receiving .synced g s) = receiving d g s := hsix
  rw [hbytes, List.flatMap_append, takeSymbols_append, hsix', List.flatMap_cons, List.flatMap_nil, List.append_nil,
    takeSymbols_headerByte (d := d) rfl rfl]
  exact takeHeaderByte_of_valid (s := receiving d g s) hlast hjudge

/-- What stands behind the header of a frame that is sent (R25, R127). -/
theorem headerValid_keeps (h : Header) (s : State) : (headerValid h s).fu.deframer = s.fu.deframer.enterBody h ∧
    (headerValid h s).te = s.te ∧ (headerValid h s).re.ring = s.re.ring ∧
    ∀ x, stagingFor s.ac.setup.address h = some x → (headerValid h s).re.staging = some x := by
  obtain ⟨hdeframer, hsetup, hre, -⟩ := headerHeard_keeps h s
  obtain ⟨hring, -⟩ := openStaging_re h (headerHeard h s)
  have hopen : headerValid h s = openStaging h (headerHeard h s) := headerValid_eq h s
  refine ⟨?_, by simp, ?_, fun x hx => ?_⟩
  · rw [hopen]
    simpa using hdeframer
  · rw [hopen, hring, hre]
  · rw [hopen, openStaging_of_some (g := x) (by rw [ownAddress, hsetup]; exact hx)]
    rfl

/-! ### The body of a frame that is sent (R18, R26) -/

theorem wordOfBytes_bytes (w : BitVec 16) : wordOfBytes (highByte w) (lowByte w) = w := by
  refine BitVec.eq_of_getLsbD_eq fun i hi => ?_
  rw [wordOfBytes, BitVec.getLsbD_append]
  by_cases hlow : i < 8
  · simp [lowByte, hlow]
  · have hhigh : i - 8 < 8 := by omega
    have hsum : 8 + (i - 8) = i := by omega
    simp [highByte, hlow, hhigh, hsum]

/-- The deframer when the header of a frame has just been found valid. -/
structure BodyAwaited (r : FrameRequest) (source : Nat) (d : Deframer) : Prop where
  phase : d.phase = if r.length = 0 then .tail else .body
  header : d.header = some (.frame (frameHeaderOf source r))
  expected : d.expected = if r.length = 0 then 0 else 8 * r.length + 16
  bits : d.bits = []
  bodyBytes : d.bodyBytes = []
  bodyCheck : d.bodyCheck = 0xFFFF
  bodyFailed : d.bodyFailed = false
  tail : d.tail = 0

theorem bodyAwaited_enterBody (r : FrameRequest) (source : Nat) (d : Deframer) :
    BodyAwaited r source (d.enterBody (.frame (frameHeaderOf source r))) where
  phase := by by_cases h : r.length = 0 <;> simp [Deframer.enterBody, Header.bodySymbols, Header.payloadLength, frameHeaderOf, h]
  header := rfl
  expected := rfl
  bits := rfl
  bodyBytes := rfl
  bodyCheck := rfl
  bodyFailed := rfl
  tail := rfl

/-- The deframer when the body of a frame has been taken whole and good. -/
structure BodyTaken (r : FrameRequest) (source : Nat) (d : Deframer) : Prop where
  phase : d.phase = .tail
  header : d.header = some (.frame (frameHeaderOf source r))
  payload : d.bodyBytes.take r.length = r.payload
  bodyFailed : d.bodyFailed = false
  tail : d.tail = 0

/-- A body that is complete is good, if the check agrees and an ORDER-RESET has a restart indicator (R18, R26). -/
theorem BodyTaken.of_complete {r : FrameRequest} {source : Nat} {d : Deframer} (hlength : r.payload.length = r.length)
    (hreset : r.kind = .orderReset → r.length = 2 ∧ (r.payload.getD 1 0 = 0 ∨ r.payload.getD 1 0 = 1))
    (hheader : d.header = some (.frame (frameHeaderOf source r)))
    (hbytes : d.bodyBytes = r.payload ++ [lowByte (bodyCheckOf r.payload), highByte (bodyCheckOf r.payload)])
    (hcheck : d.bodyCheck = bodyCheckOf r.payload) (hgood : d.bodyFailed = false) : BodyTaken r source d.complete := by
  have hpayload : d.payloadLength = r.length := Deframer.payloadLength_of_frame hheader
  have hagrees : d.checkDiffers = false := by
    have hlow : d.bodyBytes.getD r.length 0 = lowByte (bodyCheckOf r.payload) := by simp [hbytes, ← hlength]
    have hhigh : d.bodyBytes.getD (r.length + 1) 0 = highByte (bodyCheckOf r.payload) := by simp [hbytes, ← hlength]
    rw [Deframer.checkDiffers, hpayload, hlow, hhigh, hcheck, wordOfBytes_bytes]
    simp
  have hindicator : d.badIndicator = false := by
    rw [Deframer.badIndicator, Deframer.isOrderReset_of_frame hheader]
    by_cases hkind : r.kind = .orderReset
    · obtain ⟨htwo, hflag⟩ := hreset hkind
      have hsecond : d.bodyBytes.getD 1 0 = r.payload.getD 1 0 := by
        rw [hbytes, List.getD_append _ _ _ _ (by omega)]
      rw [hsecond]
      obtain hflag | hflag := hflag <;> rw [hflag] <;> simp
    · simp [frameHeaderOf, hkind]
  refine ⟨rfl, hheader, ?_, ?_, rfl⟩
  · have hsame : d.complete.bodyBytes = d.bodyBytes := rfl
    rw [hsame, hbytes, ← hlength, List.take_left']
    rfl
  · have hall : d.complete.bodyFailed = (d.bodyFailed || d.checkDiffers || d.badIndicator) := rfl
    rw [hall, hgood, hagrees, hindicator]
    rfl

/-- The body bytes of a frame take the deframer to TAIL, and its payload to the staging buffer (R26, R127). -/
theorem takeSymbols_frameBody {r : FrameRequest} {source : Nat} {d : Deframer} (h : BodyAwaited r source d)
    (hlength : r.payload.length = r.length)
    (hreset : r.kind = .orderReset → r.length = 2 ∧ (r.payload.getD 1 0 = 0 ∨ r.payload.getD 1 0 = 1))
    (g : Option Staging) (s : State) : ∃ e, BodyTaken r source e ∧
      takeSymbols ((frameBodyBytes r).flatMap bitsLowFirst) (receiving d g s) =
        receiving e (g.map fun g => { g with bytes := g.bytes ++ r.payload }) s := by
  by_cases hempty : r.length = 0
  · have hnone : r.payload = [] := List.length_eq_zero_iff.mp (hlength.trans hempty)
    have hbody : frameBodyBytes r = [] := if_pos hempty
    refine ⟨d, ⟨h.phase.trans (if_pos hempty), h.header, by simp [hempty, hnone], h.bodyFailed, h.tail⟩, ?_⟩
    simp [hbody, takeSymbols_nil, hnone]
  · have hbody : frameBodyBytes r = r.payload ++ [lowByte (bodyCheckOf r.payload), highByte (bodyCheckOf r.payload)] :=
      if_neg hempty
    have hphase : d.phase = .body := h.phase.trans (if_neg hempty)
    have hexpected : d.expected = 8 * r.length + 16 := h.expected.trans (if_neg hempty)
    have hroom : d.payloadLength = r.length := Deframer.payloadLength_of_frame h.header
    let p := d.payloadBytes r.payload
    have hpbytes : p.bodyBytes = r.payload := by simp [p, Deframer.payloadBytes, h.bodyBytes]
    have hpexpected : p.expected = 16 := by
      have hcount : p.expected = d.expected - 8 * r.payload.length := rfl
      omega
    have hpcheck : p.bodyCheck = bodyCheckOf r.payload := by
      have hfold : p.bodyCheck = r.payload.foldl bodyCheckByte d.bodyCheck := rfl
      rw [hfold, h.bodyCheck]
      rfl
    have hproom : p.payloadLength ≤ p.bodyBytes.length := by
      have hsame : p.payloadLength = d.payloadLength := rfl
      rw [hsame, hroom, hpbytes, hlength]
    refine ⟨_, BodyTaken.of_complete (d := (p.lessByte.checkByte (lowByte (bodyCheckOf r.payload))).lessByte.checkByte
      (highByte (bodyCheckOf r.payload))) hlength hreset h.header ?_ hpcheck h.bodyFailed, ?_⟩
    · have hall : ((p.lessByte.checkByte (lowByte (bodyCheckOf r.payload))).lessByte.checkByte
          (highByte (bodyCheckOf r.payload))).bodyBytes =
            p.bodyBytes ++ [lowByte (bodyCheckOf r.payload)] ++ [highByte (bodyCheckOf r.payload)] := rfl
      rw [hall, hpbytes, List.append_assoc]
      rfl
    · rw [hbody, List.flatMap_append, takeSymbols_append,
        takeSymbols_payload hphase h.bits (by simp [h.bodyBytes, hlength, hroom]) (by omega),
        takeSymbols_check (d := p) hphase rfl hproom hpexpected]

/-- Settles O36: the preamble and sync, the header, the body and the end symbols, one after another. -/
theorem frameSymbolsDeframe : Obligations.FrameSymbolsDeframe := by
  intro s source r hstart hn hsource hlength hpeer hall hslot hpayload hprobe hreset t
  have hfits : FrameFits s.ac.setup.roster r.kind source r.destination r.claimSlot r.length :=
    ⟨hsource, hpeer, hall, hslot, hpayload, hprobe, fun h => (hreset h).1⟩
  let v := headerValid (.frame (frameHeaderOf source r)) (receiving (.headed source r) s.re.staging s)
  obtain ⟨hdeframer, hte, hring, hstaging⟩ :=
    headerValid_keeps (.frame (frameHeaderOf source r)) (receiving (.headed source r) s.re.staging s)
  have hawaited : BodyAwaited r source v.fu.deframer := by
    rw [hdeframer]
    exact bodyAwaited_enterBody r source _
  obtain ⟨e, htaken, hbody⟩ := takeSymbols_frameBody hawaited hlength hreset v.re.staging v
  have hs : s = receiving .hunting s.re.staging s := by
    have hself := receiving_self s
    rw [hstart] at hself
    exact hself.symm
  have ht : t = receiving { e with tail := 2 } (v.re.staging.map fun g => { g with bytes := g.bytes ++ r.payload }) v := by
    have hrun : t = takeSymbols (frameSymbols source r) s := rfl
    rw [hrun, frameSymbols, envelope, List.flatMap_append, takeSymbols_append, takeSymbols_append, takeSymbols_append]
    conv_lhs => rw [hs]
    rw [takeSymbols_preamble, takeSymbols_frameHeader hn hfits]
    rw [receiving_self] at hbody
    exact (congrArg (takeSymbols endSymbols) hbody).trans (takeSymbols_end htaken.phase htaken.tail _ _)
  rw [ht]
  refine ⟨htaken.phase, rfl, htaken.bodyFailed, htaken.header, htaken.payload, hte, hring, fun hforeign hkind => ?_⟩
  have hopened := hstaging _ (stagingFor_of_data hforeign hkind)
  exact congrArg (Option.map fun g : Staging => { g with bytes := g.bytes ++ r.payload }) hopened

end Sys2Proof.Machine
end
